-- ==== Sys2Proof/Word.lean ====
section
/-! DEFINITION. The word types of the machine (R10 of 00_scope.md, R21, R28 of 10_state.md). -/

namespace Sys2Proof

/-- A byte: a general register, an I/O register, a byte of a memory (R21 of 10_state.md). -/
abbrev Byte := BitVec 8

/-- A 16-bit word: an instruction word, a register pair, a data-space address (R15, R51). -/
abbrev Word := BitVec 16

/-- A program-memory word address. `PC` has at most 22 bits (R28 of 10_state.md). -/
abbrev PcAddr := BitVec 22

/-- A general register's number, 0 to 31 (R21 of 10_state.md). -/
abbrev Reg := Fin 32

end Sys2Proof
end

