-- ==== Sys2Proof/Syntax.lean ====
section
/-! DEFINITION. The instructions: one constructor for each of the 136 rows of spec/opcode_table.json, in
the table's order (R4, R6 of 00_scope.md). 45 rows are other spellings of words another row defines
(R83 of 30_encoding.md): they are constructors too, so that every row has its own meaning; the decoder
yields the row that defines the word. Operands are typed by the width of their fields (R12, R80); the
register subsets of R25 are checked in WellFormed. Relative constants are two's complement. -/

namespace Sys2Proof

/-- An instruction (R4 of 00_scope.md). -/
inductive Instr where
  /-- `ADD Rd, Rr`: Add without Carry (R110). -/
  | add (d : Reg) (r : Reg)
  /-- `ADC Rd, Rr`: Add with Carry (R111). -/
  | adc (d : Reg) (r : Reg)
  /-- `ADIW Rd, K`: Add Immediate to Word (R112). -/
  | adiw (d : Reg) (k : BitVec 6)
  /-- `SUB Rd, Rr`: Subtract without Carry (R113). -/
  | sub (d : Reg) (r : Reg)
  /-- `SUBI Rd, K`: Subtract Immediate (R114). -/
  | subi (d : Reg) (k : BitVec 8)
  /-- `SBC Rd, Rr`: Subtract with Carry (R115). -/
  | sbc (d : Reg) (r : Reg)
  /-- `SBCI Rd, K`: Subtract Immediate with Carry (R116). -/
  | sbci (d : Reg) (k : BitVec 8)
  /-- `SBIW Rd, K`: Subtract Immediate from Word (R117). -/
  | sbiw (d : Reg) (k : BitVec 6)
  /-- `AND Rd, Rr`: Logical AND (R118). -/
  | and (d : Reg) (r : Reg)
  /-- `ANDI Rd, K`: Logical AND with Immediate (R119). -/
  | andi (d : Reg) (k : BitVec 8)
  /-- `OR Rd, Rr`: Logical OR (R120). -/
  | or (d : Reg) (r : Reg)
  /-- `ORI Rd, K`: Logical OR with Immediate (R121). -/
  | ori (d : Reg) (k : BitVec 8)
  /-- `EOR Rd, Rr`: Exclusive OR (R122). -/
  | eor (d : Reg) (r : Reg)
  /-- `COM Rd`: One's Complement (R123). -/
  | com (d : Reg)
  /-- `NEG Rd`: Two's Complement (R124). -/
  | neg (d : Reg)
  /-- `SBR Rd, K`: Set Bit(s) in Register (R125). Spelling of `ORI Rd, K`. -/
  | sbr (d : Reg) (k : BitVec 8)
  /-- `CBR Rd, K`: Clear Bit(s) in Register (R126). Spelling of `ANDI Rd, (0xFF - K)`. -/
  | cbr (d : Reg) (k : BitVec 8)
  /-- `INC Rd`: Increment (R127). -/
  | inc (d : Reg)
  /-- `DEC Rd`: Decrement (R128). -/
  | dec (d : Reg)
  /-- `TST Rd`: Test for Zero or Minus (R129). Spelling of `AND Rd, Rd`. -/
  | tst (d : Reg)
  /-- `CLR Rd`: Clear Register (R130). Spelling of `EOR Rd, Rd`. -/
  | clr (d : Reg)
  /-- `SER Rd`: Set Register (R131). Spelling of `LDI Rd, 0xFF`. -/
  | ser (d : Reg)
  /-- `MUL Rd, Rr`: Multiply Unsigned (R132). -/
  | mul (d : Reg) (r : Reg)
  /-- `MULS Rd, Rr`: Multiply Signed (R133). -/
  | muls (d : Reg) (r : Reg)
  /-- `MULSU Rd, Rr`: Multiply Signed with Unsigned (R134). -/
  | mulsu (d : Reg) (r : Reg)
  /-- `FMUL Rd, Rr`: Fractional Multiply Unsigned (R135). -/
  | fmul (d : Reg) (r : Reg)
  /-- `FMULS Rd, Rr`: Fractional Multiply Signed (R136). -/
  | fmuls (d : Reg) (r : Reg)
  /-- `FMULSU Rd, Rr`: Fractional Multiply Signed with Unsigned (R137). -/
  | fmulsu (d : Reg) (r : Reg)
  /-- `RJMP k`: Relative Jump (R150). -/
  | rjmp (k : BitVec 12)
  /-- `IJMP`: Indirect Jump to (Z) (R151). -/
  | ijmp
  /-- `EIJMP`: Extended Indirect Jump to (Z) (R152). -/
  | eijmp
  /-- `JMP k`: Jump (R153). -/
  | jmp (k : BitVec 22)
  /-- `RCALL k`: Relative Call Subroutine (R154). -/
  | rcall (k : BitVec 12)
  /-- `ICALL`: Indirect Call to (Z) (R155). -/
  | icall
  /-- `EICALL`: Extended Indirect Call to (Z) (R156). -/
  | eicall
  /-- `CALL k`: Call Subroutine (R157). -/
  | call (k : BitVec 22)
  /-- `RET`: Subroutine Return (R158). -/
  | ret
  /-- `RETI`: Interrupt Return (R159). -/
  | reti
  /-- `CPSE Rd, Rr`: Compare, Skip if Equal (R160). -/
  | cpse (d : Reg) (r : Reg)
  /-- `CP Rd, Rr`: Compare (R161). -/
  | cp (d : Reg) (r : Reg)
  /-- `CPC Rd, Rr`: Compare with Carry (R162). -/
  | cpc (d : Reg) (r : Reg)
  /-- `CPI Rd, K`: Compare with Immediate (R163). -/
  | cpi (d : Reg) (k : BitVec 8)
  /-- `SBRC Rr, b`: Skip if Bit in Register Cleared (R164). -/
  | sbrc (r : Reg) (b : BitVec 3)
  /-- `SBRS Rr, b`: Skip if Bit in Register Set (R165). -/
  | sbrs (r : Reg) (b : BitVec 3)
  /-- `SBIC A, b`: Skip if Bit in I/O Register Cleared (R166). -/
  | sbic (a : BitVec 5) (b : BitVec 3)
  /-- `SBIS A, b`: Skip if Bit in I/O Register Set (R167). -/
  | sbis (a : BitVec 5) (b : BitVec 3)
  /-- `BRBS s, k`: Branch if Status Flag Set (R168). -/
  | brbs (s : BitVec 3) (k : BitVec 7)
  /-- `BRBC s, k`: Branch if Status Flag Cleared (R169). -/
  | brbc (s : BitVec 3) (k : BitVec 7)
  /-- `BREQ k`: Branch if Equal (R170). Spelling of `BRBS 1, k`. -/
  | breq (k : BitVec 7)
  /-- `BRNE k`: Branch if Not Equal (R171). Spelling of `BRBC 1, k`. -/
  | brne (k : BitVec 7)
  /-- `BRCS k`: Branch if Carry Set (R172). Spelling of `BRBS 0, k`. -/
  | brcs (k : BitVec 7)
  /-- `BRCC k`: Branch if Carry Cleared (R173). Spelling of `BRBC 0, k`. -/
  | brcc (k : BitVec 7)
  /-- `BRSH k`: Branch if Same or Higher (R174). Spelling of `BRBC 0, k`. -/
  | brsh (k : BitVec 7)
  /-- `BRLO k`: Branch if Lower (R175). Spelling of `BRBS 0, k`. -/
  | brlo (k : BitVec 7)
  /-- `BRMI k`: Branch if Minus (R176). Spelling of `BRBS 2, k`. -/
  | brmi (k : BitVec 7)
  /-- `BRPL k`: Branch if Plus (R177). Spelling of `BRBC 2, k`. -/
  | brpl (k : BitVec 7)
  /-- `BRGE k`: Branch if Greater or Equal, Signed (R178). Spelling of `BRBC 4, k`. -/
  | brge (k : BitVec 7)
  /-- `BRLT k`: Branch if Less Than, Signed (R179). Spelling of `BRBS 4, k`. -/
  | brlt (k : BitVec 7)
  /-- `BRHS k`: Branch if Half Carry Flag Set (R180). Spelling of `BRBS 5, k`. -/
  | brhs (k : BitVec 7)
  /-- `BRHC k`: Branch if Half Carry Flag Cleared (R181). Spelling of `BRBC 5, k`. -/
  | brhc (k : BitVec 7)
  /-- `BRTS k`: Branch if T Flag Set (R182). Spelling of `BRBS 6, k`. -/
  | brts (k : BitVec 7)
  /-- `BRTC k`: Branch if T Flag Cleared (R183). Spelling of `BRBC 6, k`. -/
  | brtc (k : BitVec 7)
  /-- `BRVS k`: Branch if Overflow Flag is Set (R184). Spelling of `BRBS 3, k`. -/
  | brvs (k : BitVec 7)
  /-- `BRVC k`: Branch if Overflow Flag is Cleared (R185). Spelling of `BRBC 3, k`. -/
  | brvc (k : BitVec 7)
  /-- `BRIE k`: Branch if Interrupt Enabled (R186). Spelling of `BRBS 7, k`. -/
  | brie (k : BitVec 7)
  /-- `BRID k`: Branch if Interrupt Disabled (R187). Spelling of `BRBC 7, k`. -/
  | brid (k : BitVec 7)
  /-- `BREAK`: Break (R190). -/
  | brk
  /-- `NOP`: No Operation (R191). -/
  | nop
  /-- `SLEEP`: Sleep (R192). -/
  | sleep
  /-- `WDR`: Watchdog Reset (R193). -/
  | wdr
  /-- `MOV Rd, Rr`: Copy Register (R210). -/
  | mov (d : Reg) (r : Reg)
  /-- `MOVW Rd, Rr`: Copy Register Pair (R211). -/
  | movw (d : Reg) (r : Reg)
  /-- `LDI Rd, K`: Load Immediate (R212). -/
  | ldi (d : Reg) (k : BitVec 8)
  /-- `LDS Rd, k`: Load Direct from data space (R213). -/
  | lds (d : Reg) (k : BitVec 16)
  /-- `LD Rd, X`: Load Indirect (R214). -/
  | ldX (d : Reg)
  /-- `LD Rd, X+`: Load Indirect and Post-Increment (R215). -/
  | ldXInc (d : Reg)
  /-- `LD Rd, -X`: Load Indirect and Pre-Decrement (R216). -/
  | ldXDec (d : Reg)
  /-- `LD Rd, Y`: Load Indirect (R217). Spelling of `LDD Rd, Y+0`. -/
  | ldY (d : Reg)
  /-- `LD Rd, Y+`: Load Indirect and Post-Increment (R218). -/
  | ldYInc (d : Reg)
  /-- `LD Rd, -Y`: Load Indirect and Pre-Decrement (R219). -/
  | ldYDec (d : Reg)
  /-- `LDD Rd, Y+q`: Load Indirect with Displacement (R220). -/
  | lddY (d : Reg) (q : BitVec 6)
  /-- `LD Rd, Z`: Load Indirect (R221). Spelling of `LDD Rd, Z+0`. -/
  | ldZ (d : Reg)
  /-- `LD Rd, Z+`: Load Indirect and Post-Increment (R222). -/
  | ldZInc (d : Reg)
  /-- `LD Rd, -Z`: Load Indirect and Pre-Decrement (R223). -/
  | ldZDec (d : Reg)
  /-- `LDD Rd, Z+q`: Load Indirect with Displacement (R224). -/
  | lddZ (d : Reg) (q : BitVec 6)
  /-- `STS k, Rr`: Store Direct to data space (R225). -/
  | sts (k : BitVec 16) (r : Reg)
  /-- `ST X, Rr`: Store Indirect (R226). -/
  | stX (r : Reg)
  /-- `ST X+, Rr`: Store Indirect and Post-Increment (R227). -/
  | stXInc (r : Reg)
  /-- `ST -X, Rr`: Store Indirect and Pre-Decrement (R228). -/
  | stXDec (r : Reg)
  /-- `ST Y, Rr`: Store Indirect (R229). Spelling of `STD Y+0, Rr`. -/
  | stY (r : Reg)
  /-- `ST Y+, Rr`: Store Indirect and Post-Increment (R230). -/
  | stYInc (r : Reg)
  /-- `ST -Y, Rr`: Store Indirect and Pre-Decrement (R231). -/
  | stYDec (r : Reg)
  /-- `STD Y+q, Rr`: Store Indirect with Displacement (R232). -/
  | stdY (q : BitVec 6) (r : Reg)
  /-- `ST Z, Rr`: Store Indirect (R233). Spelling of `STD Z+0, Rr`. -/
  | stZ (r : Reg)
  /-- `ST Z+, Rr`: Store Indirect and Post-Increment (R234). -/
  | stZInc (r : Reg)
  /-- `ST -Z, Rr`: Store Indirect and Pre-Decrement (R235). -/
  | stZDec (r : Reg)
  /-- `STD Z+q, Rr`: Store Indirect with Displacement (R236). -/
  | stdZ (q : BitVec 6) (r : Reg)
  /-- `LPM`: Load Program Memory, implied operands (R237). -/
  | lpm
  /-- `LPM Rd, Z`: Load Program Memory (R238). -/
  | lpmZ (d : Reg)
  /-- `LPM Rd, Z+`: Load Program Memory and Post-Increment (R239). -/
  | lpmZInc (d : Reg)
  /-- `ELPM`: Extended Load Program Memory, implied operands (R240). -/
  | elpm
  /-- `ELPM Rd, Z`: Extended Load Program Memory (R241). -/
  | elpmZ (d : Reg)
  /-- `ELPM Rd, Z+`: Extended Load Program Memory and Post-Increment (R242). -/
  | elpmZInc (d : Reg)
  /-- `SPM`: Store Program Memory (R243). -/
  | spm
  /-- `IN Rd, A`: In From I/O Location (R244). -/
  | inp (d : Reg) (a : BitVec 6)
  /-- `OUT A, Rr`: Out To I/O Location (R245). -/
  | out (a : BitVec 6) (r : Reg)
  /-- `PUSH Rr`: Push Register on Stack (R246). -/
  | push (r : Reg)
  /-- `POP Rd`: Pop Register from Stack (R247). -/
  | pop (d : Reg)
  /-- `LSL Rd`: Logical Shift Left (R265). Spelling of `ADD Rd, Rd`. -/
  | lsl (d : Reg)
  /-- `LSR Rd`: Logical Shift Right (R266). -/
  | lsr (d : Reg)
  /-- `ROL Rd`: Rotate Left Through Carry (R267). Spelling of `ADC Rd, Rd`. -/
  | rol (d : Reg)
  /-- `ROR Rd`: Rotate Right Through Carry (R268). -/
  | ror (d : Reg)
  /-- `ASR Rd`: Arithmetic Shift Right (R269). -/
  | asr (d : Reg)
  /-- `SWAP Rd`: Swap Nibbles (R270). -/
  | swap (d : Reg)
  /-- `BSET s`: Flag Set (R271). -/
  | bset (s : BitVec 3)
  /-- `BCLR s`: Flag Clear (R272). -/
  | bclr (s : BitVec 3)
  /-- `SBI A, b`: Set Bit in I/O Register (R273). -/
  | sbi (a : BitVec 5) (b : BitVec 3)
  /-- `CBI A, b`: Clear Bit in I/O Register (R274). -/
  | cbi (a : BitVec 5) (b : BitVec 3)
  /-- `BST Rr, b`: Bit Store from Register to T (R275). -/
  | bst (r : Reg) (b : BitVec 3)
  /-- `BLD Rd, b`: Bit load from T to Register (R276). -/
  | bld (d : Reg) (b : BitVec 3)
  /-- `SEC`: Set Carry (R277). Spelling of `BSET 0`. -/
  | sec
  /-- `CLC`: Clear Carry (R278). Spelling of `BCLR 0`. -/
  | clc
  /-- `SEN`: Set Negative Flag (R279). Spelling of `BSET 2`. -/
  | sen
  /-- `CLN`: Clear Negative Flag (R280). Spelling of `BCLR 2`. -/
  | cln
  /-- `SEZ`: Set Zero Flag (R281). Spelling of `BSET 1`. -/
  | sez
  /-- `CLZ`: Clear Zero Flag (R282). Spelling of `BCLR 1`. -/
  | clz
  /-- `SEI`: Global Interrupt Enable (R283). Spelling of `BSET 7`. -/
  | sei
  /-- `CLI`: Global Interrupt Disable (R284). Spelling of `BCLR 7`. -/
  | cli
  /-- `SES`: Set Signed Test Flag (R285). Spelling of `BSET 4`. -/
  | ses
  /-- `CLS`: Clear Signed Test Flag (R286). Spelling of `BCLR 4`. -/
  | cls
  /-- `SEV`: Set Two's Complement Overflow (R287). Spelling of `BSET 3`. -/
  | sev
  /-- `CLV`: Clear Two's Complement Overflow (R288). Spelling of `BCLR 3`. -/
  | clv
  /-- `SET`: Set T in SREG (R289). Spelling of `BSET 6`. -/
  | set
  /-- `CLT`: Clear T in SREG (R290). Spelling of `BCLR 6`. -/
  | clt
  /-- `SEH`: Set Half Carry Flag in SREG (R291). Spelling of `BSET 5`. -/
  | seh
  /-- `CLH`: Clear Half Carry Flag in SREG (R292). Spelling of `BCLR 5`. -/
  | clh
  deriving DecidableEq, Repr

end Sys2Proof
end

