-- ==== Sys2Proof/WellFormed.lean ====
section
/-! DEFINITION. Well-formed instructions: the register subsets of R25 of 10_state.md and R79 of
30_encoding.md. The ranges of the other operands (R12, R80) are those of their types. -/

namespace Sys2Proof

/-- R16 to R31 (the 4-bit register field of format RI and of `MULS`). -/
def upperHalf (d : Reg) : Bool := decide (16 ≤ d.val)

/-- R16 to R23 (the 3-bit register field of format R3R3). -/
def r16to23 (d : Reg) : Bool := decide (16 ≤ d.val ∧ d.val ≤ 23)

/-- R24, R26, R28 or R30 (the 2-bit register field of format WI). -/
def wordPair (d : Reg) : Bool := decide (24 ≤ d.val ∧ d.val % 2 = 0)

/-- An even register (the 4-bit register fields of `MOVW`). -/
def evenReg (d : Reg) : Bool := decide (d.val % 2 = 0)

/-- The instruction's operands lie in the subsets its encoding can name (R25 of 10_state.md). -/
def Instr.wf : Instr → Bool
  | .add _ _ => true
  | .adc _ _ => true
  | .adiw d _ => wordPair d
  | .sub _ _ => true
  | .subi d _ => upperHalf d
  | .sbc _ _ => true
  | .sbci d _ => upperHalf d
  | .sbiw d _ => wordPair d
  | .and _ _ => true
  | .andi d _ => upperHalf d
  | .or _ _ => true
  | .ori d _ => upperHalf d
  | .eor _ _ => true
  | .com _ => true
  | .neg _ => true
  | .sbr d _ => upperHalf d
  | .cbr d _ => upperHalf d
  | .inc _ => true
  | .dec _ => true
  | .tst _ => true
  | .clr _ => true
  | .ser d => upperHalf d
  | .mul _ _ => true
  | .muls d r => upperHalf d && upperHalf r
  | .mulsu d r => r16to23 d && r16to23 r
  | .fmul d r => r16to23 d && r16to23 r
  | .fmuls d r => r16to23 d && r16to23 r
  | .fmulsu d r => r16to23 d && r16to23 r
  | .rjmp _ => true
  | .ijmp => true
  | .eijmp => true
  | .jmp _ => true
  | .rcall _ => true
  | .icall => true
  | .eicall => true
  | .call _ => true
  | .ret => true
  | .reti => true
  | .cpse _ _ => true
  | .cp _ _ => true
  | .cpc _ _ => true
  | .cpi d _ => upperHalf d
  | .sbrc _ _ => true
  | .sbrs _ _ => true
  | .sbic _ _ => true
  | .sbis _ _ => true
  | .brbs _ _ => true
  | .brbc _ _ => true
  | .breq _ => true
  | .brne _ => true
  | .brcs _ => true
  | .brcc _ => true
  | .brsh _ => true
  | .brlo _ => true
  | .brmi _ => true
  | .brpl _ => true
  | .brge _ => true
  | .brlt _ => true
  | .brhs _ => true
  | .brhc _ => true
  | .brts _ => true
  | .brtc _ => true
  | .brvs _ => true
  | .brvc _ => true
  | .brie _ => true
  | .brid _ => true
  | .brk => true
  | .nop => true
  | .sleep => true
  | .wdr => true
  | .mov _ _ => true
  | .movw d r => evenReg d && evenReg r
  | .ldi d _ => upperHalf d
  | .lds _ _ => true
  | .ldX _ => true
  | .ldXInc _ => true
  | .ldXDec _ => true
  | .ldY _ => true
  | .ldYInc _ => true
  | .ldYDec _ => true
  | .lddY _ _ => true
  | .ldZ _ => true
  | .ldZInc _ => true
  | .ldZDec _ => true
  | .lddZ _ _ => true
  | .sts _ _ => true
  | .stX _ => true
  | .stXInc _ => true
  | .stXDec _ => true
  | .stY _ => true
  | .stYInc _ => true
  | .stYDec _ => true
  | .stdY _ _ => true
  | .stZ _ => true
  | .stZInc _ => true
  | .stZDec _ => true
  | .stdZ _ _ => true
  | .lpm => true
  | .lpmZ _ => true
  | .lpmZInc _ => true
  | .elpm => true
  | .elpmZ _ => true
  | .elpmZInc _ => true
  | .spm => true
  | .inp _ _ => true
  | .out _ _ => true
  | .push _ => true
  | .pop _ => true
  | .lsl _ => true
  | .lsr _ => true
  | .rol _ => true
  | .ror _ => true
  | .asr _ => true
  | .swap _ => true
  | .bset _ => true
  | .bclr _ => true
  | .sbi _ _ => true
  | .cbi _ _ => true
  | .bst _ _ => true
  | .bld _ _ => true
  | .sec => true
  | .clc => true
  | .sen => true
  | .cln => true
  | .sez => true
  | .clz => true
  | .sei => true
  | .cli => true
  | .ses => true
  | .cls => true
  | .sev => true
  | .clv => true
  | .set => true
  | .clt => true
  | .seh => true
  | .clh => true

end Sys2Proof
end

