-- ==== Sys2Proof/Decode.lean ====
section
/-! DEFINITION. The decoder and the encoder (30_encoding.md, R75 to R90). The decoder is the opcode map of
R81 as a list of rows, each a mask, a pattern and the operands read from the fields of R78, mapped by
R79 and R80; R90 takes the row without `alias_of` whose pattern matches. The bit patterns are the
spec's general knowledge (D1, GK1; log 16). -/

namespace Sys2Proof

/-- Why a decoder answers no instruction. -/
inductive DecodeError where
  /-- A reserved first word (R85, R87). -/
  | reserved (w0 : Word)
  /-- The bytes end inside the instruction. -/
  | truncated
  deriving DecidableEq, Repr

/-- Bits `lo + n - 1` down to `lo` of an instruction word (R10 of 00_scope.md). -/
def field (w : Word) (lo n : Nat) : Nat := w.toNat / 2 ^ lo % 2 ^ n

/-! ## Fields and their mapping (R78, R79, R80) -/

/-- The 5-bit register field in bits 8:4. -/
def fieldD (w : Word) : Reg := Fin.ofNat 32 (field w 4 5)

/-- The second register field of format RR: bit 9 above bits 3:0. -/
def fieldR (w : Word) : Reg := Fin.ofNat 32 (field w 9 1 * 16 + field w 0 4)

/-- The 4-bit field in bits 7:4 naming R16 to R31. -/
def fieldD16 (w : Word) : Reg := Fin.ofNat 32 (16 + field w 4 4)

/-- The 4-bit field in bits 3:0 naming R16 to R31 (`MULS`). -/
def fieldR16 (w : Word) : Reg := Fin.ofNat 32 (16 + field w 0 4)

/-- The 3-bit field in bits 6:4 naming R16 to R23. -/
def fieldD3 (w : Word) : Reg := Fin.ofNat 32 (16 + field w 4 3)

/-- The 3-bit field in bits 2:0 naming R16 to R23. -/
def fieldR3 (w : Word) : Reg := Fin.ofNat 32 (16 + field w 0 3)

/-- The 4-bit field in bits 7:4 naming an even register (`MOVW`). -/
def fieldEvenD (w : Word) : Reg := Fin.ofNat 32 (2 * field w 4 4)

/-- The 4-bit field in bits 3:0 naming an even register (`MOVW`). -/
def fieldEvenR (w : Word) : Reg := Fin.ofNat 32 (2 * field w 0 4)

/-- The 2-bit field in bits 5:4 naming the pair that starts at R24, R26, R28 or R30 (format WI). -/
def fieldPair (w : Word) : Reg := Fin.ofNat 32 (24 + 2 * field w 4 2)

/-- `K` of format RI: bits 11:8 above bits 3:0. -/
def fieldK8 (w : Word) : BitVec 8 := BitVec.ofNat 8 (field w 8 4 * 16 + field w 0 4)

/-- `K` of format WI: bits 7:6 above bits 3:0. -/
def fieldK6 (w : Word) : BitVec 6 := BitVec.ofNat 6 (field w 6 2 * 16 + field w 0 4)

/-- `k` of format REL12. -/
def fieldRel12 (w : Word) : BitVec 12 := BitVec.ofNat 12 (field w 0 12)

/-- `k` of format BR: bits 9:3. -/
def fieldRel7 (w : Word) : BitVec 7 := BitVec.ofNat 7 (field w 3 7)

/-- `k` of format ABS22: bits 8:4 and bit 0 of the first word above the second word. -/
def fieldAbs22 (w w1 : Word) : BitVec 22 :=
  BitVec.ofNat 22 (field w 4 5 * 131072 + field w 0 1 * 65536 + w1.toNat)

/-- `b` of formats RB and AB, `s` of format BR: bits 2:0. -/
def fieldB (w : Word) : BitVec 3 := BitVec.ofNat 3 (field w 0 3)

/-- `s` of format SF: bits 6:4. -/
def fieldS (w : Word) : BitVec 3 := BitVec.ofNat 3 (field w 4 3)

/-- `A` of format AB: bits 7:3. -/
def fieldA5 (w : Word) : BitVec 5 := BitVec.ofNat 5 (field w 3 5)

/-- `A` of format IO: bits 10:9 above bits 3:0. -/
def fieldA6 (w : Word) : BitVec 6 := BitVec.ofNat 6 (field w 9 2 * 16 + field w 0 4)

/-- `q` of format DISP: bit 13 above bits 11:10 above bits 2:0. -/
def fieldQ (w : Word) : BitVec 6 :=
  BitVec.ofNat 6 (field w 13 1 * 32 + field w 10 2 * 8 + field w 0 3)

/-! ## The opcode map (R81) -/

/-- One row of the opcode map: the first words w0 with `w0 & mask = pat` are this row's; `build` reads
the operands from the first and the second word (a one-word row does not look at the second). -/
structure OpRow where
  mask : Word
  pat : Word
  build : Word → Word → Instr

/-- The defining rows among rows 1 to 28 of the opcode table. -/
def opArith : List OpRow := [
  ⟨0xFC00#16, 0x0C00#16, fun w _ => .add (fieldD w) (fieldR w)⟩,  -- ADD Rd, Rr: 0000 11rd dddd rrrr
  ⟨0xFC00#16, 0x1C00#16, fun w _ => .adc (fieldD w) (fieldR w)⟩,  -- ADC Rd, Rr: 0001 11rd dddd rrrr
  ⟨0xFF00#16, 0x9600#16, fun w _ => .adiw (fieldPair w) (fieldK6 w)⟩,  -- ADIW Rd, K: 1001 0110 KKdd KKKK
  ⟨0xFC00#16, 0x1800#16, fun w _ => .sub (fieldD w) (fieldR w)⟩,  -- SUB Rd, Rr: 0001 10rd dddd rrrr
  ⟨0xF000#16, 0x5000#16, fun w _ => .subi (fieldD16 w) (fieldK8 w)⟩,  -- SUBI Rd, K: 0101 KKKK dddd KKKK
  ⟨0xFC00#16, 0x0800#16, fun w _ => .sbc (fieldD w) (fieldR w)⟩,  -- SBC Rd, Rr: 0000 10rd dddd rrrr
  ⟨0xF000#16, 0x4000#16, fun w _ => .sbci (fieldD16 w) (fieldK8 w)⟩,  -- SBCI Rd, K: 0100 KKKK dddd KKKK
  ⟨0xFF00#16, 0x9700#16, fun w _ => .sbiw (fieldPair w) (fieldK6 w)⟩,  -- SBIW Rd, K: 1001 0111 KKdd KKKK
  ⟨0xFC00#16, 0x2000#16, fun w _ => .and (fieldD w) (fieldR w)⟩,  -- AND Rd, Rr: 0010 00rd dddd rrrr
  ⟨0xF000#16, 0x7000#16, fun w _ => .andi (fieldD16 w) (fieldK8 w)⟩,  -- ANDI Rd, K: 0111 KKKK dddd KKKK
  ⟨0xFC00#16, 0x2800#16, fun w _ => .or (fieldD w) (fieldR w)⟩,  -- OR Rd, Rr: 0010 10rd dddd rrrr
  ⟨0xF000#16, 0x6000#16, fun w _ => .ori (fieldD16 w) (fieldK8 w)⟩,  -- ORI Rd, K: 0110 KKKK dddd KKKK
  ⟨0xFC00#16, 0x2400#16, fun w _ => .eor (fieldD w) (fieldR w)⟩,  -- EOR Rd, Rr: 0010 01rd dddd rrrr
  ⟨0xFE0F#16, 0x9400#16, fun w _ => .com (fieldD w)⟩,  -- COM Rd: 1001 010d dddd 0000
  ⟨0xFE0F#16, 0x9401#16, fun w _ => .neg (fieldD w)⟩,  -- NEG Rd: 1001 010d dddd 0001
  ⟨0xFE0F#16, 0x9403#16, fun w _ => .inc (fieldD w)⟩,  -- INC Rd: 1001 010d dddd 0011
  ⟨0xFE0F#16, 0x940A#16, fun w _ => .dec (fieldD w)⟩,  -- DEC Rd: 1001 010d dddd 1010
  ⟨0xFC00#16, 0x9C00#16, fun w _ => .mul (fieldD w) (fieldR w)⟩,  -- MUL Rd, Rr: 1001 11rd dddd rrrr
  ⟨0xFF00#16, 0x0200#16, fun w _ => .muls (fieldD16 w) (fieldR16 w)⟩,  -- MULS Rd, Rr: 0000 0010 dddd rrrr
  ⟨0xFF88#16, 0x0300#16, fun w _ => .mulsu (fieldD3 w) (fieldR3 w)⟩,  -- MULSU Rd, Rr: 0000 0011 0ddd 0rrr
  ⟨0xFF88#16, 0x0308#16, fun w _ => .fmul (fieldD3 w) (fieldR3 w)⟩,  -- FMUL Rd, Rr: 0000 0011 0ddd 1rrr
  ⟨0xFF88#16, 0x0380#16, fun w _ => .fmuls (fieldD3 w) (fieldR3 w)⟩,  -- FMULS Rd, Rr: 0000 0011 1ddd 0rrr
  ⟨0xFF88#16, 0x0388#16, fun w _ => .fmulsu (fieldD3 w) (fieldR3 w)⟩]  -- FMULSU Rd, Rr: 0000 0011 1ddd 1rrr

/-- The defining rows among rows 29 to 66 of the opcode table. -/
def opBranch : List OpRow := [
  ⟨0xF000#16, 0xC000#16, fun w _ => .rjmp (fieldRel12 w)⟩,  -- RJMP k: 1100 kkkk kkkk kkkk
  ⟨0xFFFF#16, 0x9409#16, fun _ _ => .ijmp⟩,  -- IJMP : 1001 0100 0000 1001
  ⟨0xFFFF#16, 0x9419#16, fun _ _ => .eijmp⟩,  -- EIJMP : 1001 0100 0001 1001
  ⟨0xFE0E#16, 0x940C#16, fun w w1 => .jmp (fieldAbs22 w w1)⟩,  -- JMP k: 1001 010k kkkk 110k kkkk kkkk kkkk kkkk
  ⟨0xF000#16, 0xD000#16, fun w _ => .rcall (fieldRel12 w)⟩,  -- RCALL k: 1101 kkkk kkkk kkkk
  ⟨0xFFFF#16, 0x9509#16, fun _ _ => .icall⟩,  -- ICALL : 1001 0101 0000 1001
  ⟨0xFFFF#16, 0x9519#16, fun _ _ => .eicall⟩,  -- EICALL : 1001 0101 0001 1001
  ⟨0xFE0E#16, 0x940E#16, fun w w1 => .call (fieldAbs22 w w1)⟩,  -- CALL k: 1001 010k kkkk 111k kkkk kkkk kkkk kkkk
  ⟨0xFFFF#16, 0x9508#16, fun _ _ => .ret⟩,  -- RET : 1001 0101 0000 1000
  ⟨0xFFFF#16, 0x9518#16, fun _ _ => .reti⟩,  -- RETI : 1001 0101 0001 1000
  ⟨0xFC00#16, 0x1000#16, fun w _ => .cpse (fieldD w) (fieldR w)⟩,  -- CPSE Rd, Rr: 0001 00rd dddd rrrr
  ⟨0xFC00#16, 0x1400#16, fun w _ => .cp (fieldD w) (fieldR w)⟩,  -- CP Rd, Rr: 0001 01rd dddd rrrr
  ⟨0xFC00#16, 0x0400#16, fun w _ => .cpc (fieldD w) (fieldR w)⟩,  -- CPC Rd, Rr: 0000 01rd dddd rrrr
  ⟨0xF000#16, 0x3000#16, fun w _ => .cpi (fieldD16 w) (fieldK8 w)⟩,  -- CPI Rd, K: 0011 KKKK dddd KKKK
  ⟨0xFE08#16, 0xFC00#16, fun w _ => .sbrc (fieldD w) (fieldB w)⟩,  -- SBRC Rr, b: 1111 110r rrrr 0bbb
  ⟨0xFE08#16, 0xFE00#16, fun w _ => .sbrs (fieldD w) (fieldB w)⟩,  -- SBRS Rr, b: 1111 111r rrrr 0bbb
  ⟨0xFF00#16, 0x9900#16, fun w _ => .sbic (fieldA5 w) (fieldB w)⟩,  -- SBIC A, b: 1001 1001 AAAA Abbb
  ⟨0xFF00#16, 0x9B00#16, fun w _ => .sbis (fieldA5 w) (fieldB w)⟩,  -- SBIS A, b: 1001 1011 AAAA Abbb
  ⟨0xFC00#16, 0xF000#16, fun w _ => .brbs (fieldB w) (fieldRel7 w)⟩,  -- BRBS s, k: 1111 00kk kkkk ksss
  ⟨0xFC00#16, 0xF400#16, fun w _ => .brbc (fieldB w) (fieldRel7 w)⟩]  -- BRBC s, k: 1111 01kk kkkk ksss

/-- The defining rows among rows 67 to 70 of the opcode table. -/
def opControl : List OpRow := [
  ⟨0xFFFF#16, 0x9598#16, fun _ _ => .brk⟩,  -- BREAK : 1001 0101 1001 1000
  ⟨0xFFFF#16, 0x0000#16, fun _ _ => .nop⟩,  -- NOP : 0000 0000 0000 0000
  ⟨0xFFFF#16, 0x9588#16, fun _ _ => .sleep⟩,  -- SLEEP : 1001 0101 1000 1000
  ⟨0xFFFF#16, 0x95A8#16, fun _ _ => .wdr⟩]  -- WDR : 1001 0101 1010 1000

/-- The defining rows among rows 71 to 108 of the opcode table. -/
def opTransfer : List OpRow := [
  ⟨0xFC00#16, 0x2C00#16, fun w _ => .mov (fieldD w) (fieldR w)⟩,  -- MOV Rd, Rr: 0010 11rd dddd rrrr
  ⟨0xFF00#16, 0x0100#16, fun w _ => .movw (fieldEvenD w) (fieldEvenR w)⟩,  -- MOVW Rd, Rr: 0000 0001 dddd rrrr
  ⟨0xF000#16, 0xE000#16, fun w _ => .ldi (fieldD16 w) (fieldK8 w)⟩,  -- LDI Rd, K: 1110 KKKK dddd KKKK
  ⟨0xFE0F#16, 0x9000#16, fun w w1 => .lds (fieldD w) w1⟩,  -- LDS Rd, k: 1001 000d dddd 0000 kkkk kkkk kkkk kkkk
  ⟨0xFE0F#16, 0x900C#16, fun w _ => .ldX (fieldD w)⟩,  -- LD Rd, X: 1001 000d dddd 1100
  ⟨0xFE0F#16, 0x900D#16, fun w _ => .ldXInc (fieldD w)⟩,  -- LD Rd, X+: 1001 000d dddd 1101
  ⟨0xFE0F#16, 0x900E#16, fun w _ => .ldXDec (fieldD w)⟩,  -- LD Rd, -X: 1001 000d dddd 1110
  ⟨0xFE0F#16, 0x9009#16, fun w _ => .ldYInc (fieldD w)⟩,  -- LD Rd, Y+: 1001 000d dddd 1001
  ⟨0xFE0F#16, 0x900A#16, fun w _ => .ldYDec (fieldD w)⟩,  -- LD Rd, -Y: 1001 000d dddd 1010
  ⟨0xD208#16, 0x8008#16, fun w _ => .lddY (fieldD w) (fieldQ w)⟩,  -- LDD Rd, Y+q: 10q0 qq0d dddd 1qqq
  ⟨0xFE0F#16, 0x9001#16, fun w _ => .ldZInc (fieldD w)⟩,  -- LD Rd, Z+: 1001 000d dddd 0001
  ⟨0xFE0F#16, 0x9002#16, fun w _ => .ldZDec (fieldD w)⟩,  -- LD Rd, -Z: 1001 000d dddd 0010
  ⟨0xD208#16, 0x8000#16, fun w _ => .lddZ (fieldD w) (fieldQ w)⟩,  -- LDD Rd, Z+q: 10q0 qq0d dddd 0qqq
  ⟨0xFE0F#16, 0x9200#16, fun w w1 => .sts w1 (fieldD w)⟩,  -- STS k, Rr: 1001 001r rrrr 0000 kkkk kkkk kkkk kkkk
  ⟨0xFE0F#16, 0x920C#16, fun w _ => .stX (fieldD w)⟩,  -- ST X, Rr: 1001 001r rrrr 1100
  ⟨0xFE0F#16, 0x920D#16, fun w _ => .stXInc (fieldD w)⟩,  -- ST X+, Rr: 1001 001r rrrr 1101
  ⟨0xFE0F#16, 0x920E#16, fun w _ => .stXDec (fieldD w)⟩,  -- ST -X, Rr: 1001 001r rrrr 1110
  ⟨0xFE0F#16, 0x9209#16, fun w _ => .stYInc (fieldD w)⟩,  -- ST Y+, Rr: 1001 001r rrrr 1001
  ⟨0xFE0F#16, 0x920A#16, fun w _ => .stYDec (fieldD w)⟩,  -- ST -Y, Rr: 1001 001r rrrr 1010
  ⟨0xD208#16, 0x8208#16, fun w _ => .stdY (fieldQ w) (fieldD w)⟩,  -- STD Y+q, Rr: 10q0 qq1r rrrr 1qqq
  ⟨0xFE0F#16, 0x9201#16, fun w _ => .stZInc (fieldD w)⟩,  -- ST Z+, Rr: 1001 001r rrrr 0001
  ⟨0xFE0F#16, 0x9202#16, fun w _ => .stZDec (fieldD w)⟩,  -- ST -Z, Rr: 1001 001r rrrr 0010
  ⟨0xD208#16, 0x8200#16, fun w _ => .stdZ (fieldQ w) (fieldD w)⟩,  -- STD Z+q, Rr: 10q0 qq1r rrrr 0qqq
  ⟨0xFFFF#16, 0x95C8#16, fun _ _ => .lpm⟩,  -- LPM : 1001 0101 1100 1000
  ⟨0xFE0F#16, 0x9004#16, fun w _ => .lpmZ (fieldD w)⟩,  -- LPM Rd, Z: 1001 000d dddd 0100
  ⟨0xFE0F#16, 0x9005#16, fun w _ => .lpmZInc (fieldD w)⟩,  -- LPM Rd, Z+: 1001 000d dddd 0101
  ⟨0xFFFF#16, 0x95D8#16, fun _ _ => .elpm⟩,  -- ELPM : 1001 0101 1101 1000
  ⟨0xFE0F#16, 0x9006#16, fun w _ => .elpmZ (fieldD w)⟩,  -- ELPM Rd, Z: 1001 000d dddd 0110
  ⟨0xFE0F#16, 0x9007#16, fun w _ => .elpmZInc (fieldD w)⟩,  -- ELPM Rd, Z+: 1001 000d dddd 0111
  ⟨0xFFFF#16, 0x95E8#16, fun _ _ => .spm⟩,  -- SPM : 1001 0101 1110 1000
  ⟨0xF800#16, 0xB000#16, fun w _ => .inp (fieldD w) (fieldA6 w)⟩,  -- IN Rd, A: 1011 0AAd dddd AAAA
  ⟨0xF800#16, 0xB800#16, fun w _ => .out (fieldA6 w) (fieldD w)⟩,  -- OUT A, Rr: 1011 1AAr rrrr AAAA
  ⟨0xFE0F#16, 0x920F#16, fun w _ => .push (fieldD w)⟩,  -- PUSH Rr: 1001 001r rrrr 1111
  ⟨0xFE0F#16, 0x900F#16, fun w _ => .pop (fieldD w)⟩]  -- POP Rd: 1001 000d dddd 1111

/-- The defining rows among rows 109 to 136 of the opcode table. -/
def opBits : List OpRow := [
  ⟨0xFE0F#16, 0x9406#16, fun w _ => .lsr (fieldD w)⟩,  -- LSR Rd: 1001 010d dddd 0110
  ⟨0xFE0F#16, 0x9407#16, fun w _ => .ror (fieldD w)⟩,  -- ROR Rd: 1001 010d dddd 0111
  ⟨0xFE0F#16, 0x9405#16, fun w _ => .asr (fieldD w)⟩,  -- ASR Rd: 1001 010d dddd 0101
  ⟨0xFE0F#16, 0x9402#16, fun w _ => .swap (fieldD w)⟩,  -- SWAP Rd: 1001 010d dddd 0010
  ⟨0xFF8F#16, 0x9408#16, fun w _ => .bset (fieldS w)⟩,  -- BSET s: 1001 0100 0sss 1000
  ⟨0xFF8F#16, 0x9488#16, fun w _ => .bclr (fieldS w)⟩,  -- BCLR s: 1001 0100 1sss 1000
  ⟨0xFF00#16, 0x9A00#16, fun w _ => .sbi (fieldA5 w) (fieldB w)⟩,  -- SBI A, b: 1001 1010 AAAA Abbb
  ⟨0xFF00#16, 0x9800#16, fun w _ => .cbi (fieldA5 w) (fieldB w)⟩,  -- CBI A, b: 1001 1000 AAAA Abbb
  ⟨0xFE08#16, 0xFA00#16, fun w _ => .bst (fieldD w) (fieldB w)⟩,  -- BST Rr, b: 1111 101r rrrr 0bbb
  ⟨0xFE08#16, 0xF800#16, fun w _ => .bld (fieldD w) (fieldB w)⟩]  -- BLD Rd, b: 1111 100d dddd 0bbb

/-- The 91 defining rows of the opcode table (R81, R83). -/
def opTable : List OpRow := opArith ++ opBranch ++ opControl ++ opTransfer ++ opBits

/-- R76: a first word begins a two-word instruction. -/
def isTwoWord (w0 : Word) : Bool :=
  w0 &&& 0xFE0F#16 == 0x9000#16 || w0 &&& 0xFE0F#16 == 0x9200#16 ||
  w0 &&& 0xFE0E#16 == 0x940C#16 || w0 &&& 0xFE0E#16 == 0x940E#16

/-- R90 (1), (3), (4): the instruction of a first word and, for a two-word instruction, the second. -/
def decodeOp (w0 w1 : Word) : Except DecodeError Instr :=
  match opTable.find? (fun row => w0 &&& row.mask == row.pat) with
  | some row => .ok (row.build w0 w1)
  | none => .error (.reserved w0)

/-- The instruction at the head of a list of words, and the words after it. -/
def decode : List Word → Except DecodeError (Instr × List Word)
  | [] => .error .truncated
  | w0 :: rest =>
    if isTwoWord w0 then
      match rest with
      | [] => .error .truncated
      | w1 :: rest' => (decodeOp w0 w1).map (fun i => (i, rest'))
    else (decodeOp w0 0#16).map (fun i => (i, rest))

/-- A word from its bytes: program memory is little-endian (R62, R66). -/
def wordOf (lo hi : Byte) : Word := hi ++ lo

/-- The instruction at the head of a list of bytes, and the bytes after it. -/
def decodeBytes : List Byte → Except DecodeError (Instr × List Byte)
  | lo :: hi :: rest =>
    if isTwoWord (wordOf lo hi) then
      match rest with
      | lo1 :: hi1 :: rest' => (decodeOp (wordOf lo hi) (wordOf lo1 hi1)).map (fun i => (i, rest'))
      | _ => .error .truncated
    else (decodeOp (wordOf lo hi) 0#16).map (fun i => (i, rest))
  | _ => .error .truncated

/-- The four bytes, lowest address first, of an instruction whose bits are `w` numbered as the opcode
table numbers them, of which `nbits` are given and the others are 0. -/
def tableBytes (nbits w : Nat) : List Byte :=
  let v := w % 2 ^ nbits
  [BitVec.ofNat 8 v, BitVec.ofNat 8 (v / 2 ^ 8), BitVec.ofNat 8 (v / 2 ^ 16), BitVec.ofNat 8 (v / 2 ^ 24)]

/-- The instruction the decoder reads from an instruction whose bits are `w`, numbered as
spec/opcode_table.json numbers them. -/
def decodeTableWord (nbits w : Nat) : Option Instr :=
  match decodeBytes (tableBytes nbits w) with
  | .ok (i, _) => some i
  | .error _ => none

/-! ## The encoder (R78 to R81, aliases by R83) -/

/-- The row's length in words (R75 of 30_encoding.md): two for `JMP`, `CALL`, `LDS`, `STS`, else one. -/
def Instr.words : Instr → Nat
  | .jmp _ | .call _ | .lds _ _ | .sts _ _ => 2
  | .add _ _ => 1
  | .adc _ _ => 1
  | .adiw _ _ => 1
  | .sub _ _ => 1
  | .subi _ _ => 1
  | .sbc _ _ => 1
  | .sbci _ _ => 1
  | .sbiw _ _ => 1
  | .and _ _ => 1
  | .andi _ _ => 1
  | .or _ _ => 1
  | .ori _ _ => 1
  | .eor _ _ => 1
  | .com _ => 1
  | .neg _ => 1
  | .sbr _ _ => 1
  | .cbr _ _ => 1
  | .inc _ => 1
  | .dec _ => 1
  | .tst _ => 1
  | .clr _ => 1
  | .ser _ => 1
  | .mul _ _ => 1
  | .muls _ _ => 1
  | .mulsu _ _ => 1
  | .fmul _ _ => 1
  | .fmuls _ _ => 1
  | .fmulsu _ _ => 1
  | .rjmp _ => 1
  | .ijmp => 1
  | .eijmp => 1
  | .rcall _ => 1
  | .icall => 1
  | .eicall => 1
  | .ret => 1
  | .reti => 1
  | .cpse _ _ => 1
  | .cp _ _ => 1
  | .cpc _ _ => 1
  | .cpi _ _ => 1
  | .sbrc _ _ => 1
  | .sbrs _ _ => 1
  | .sbic _ _ => 1
  | .sbis _ _ => 1
  | .brbs _ _ => 1
  | .brbc _ _ => 1
  | .breq _ => 1
  | .brne _ => 1
  | .brcs _ => 1
  | .brcc _ => 1
  | .brsh _ => 1
  | .brlo _ => 1
  | .brmi _ => 1
  | .brpl _ => 1
  | .brge _ => 1
  | .brlt _ => 1
  | .brhs _ => 1
  | .brhc _ => 1
  | .brts _ => 1
  | .brtc _ => 1
  | .brvs _ => 1
  | .brvc _ => 1
  | .brie _ => 1
  | .brid _ => 1
  | .brk => 1
  | .nop => 1
  | .sleep => 1
  | .wdr => 1
  | .mov _ _ => 1
  | .movw _ _ => 1
  | .ldi _ _ => 1
  | .ldX _ => 1
  | .ldXInc _ => 1
  | .ldXDec _ => 1
  | .ldY _ => 1
  | .ldYInc _ => 1
  | .ldYDec _ => 1
  | .lddY _ _ => 1
  | .ldZ _ => 1
  | .ldZInc _ => 1
  | .ldZDec _ => 1
  | .lddZ _ _ => 1
  | .stX _ => 1
  | .stXInc _ => 1
  | .stXDec _ => 1
  | .stY _ => 1
  | .stYInc _ => 1
  | .stYDec _ => 1
  | .stdY _ _ => 1
  | .stZ _ => 1
  | .stZInc _ => 1
  | .stZDec _ => 1
  | .stdZ _ _ => 1
  | .lpm => 1
  | .lpmZ _ => 1
  | .lpmZInc _ => 1
  | .elpm => 1
  | .elpmZ _ => 1
  | .elpmZInc _ => 1
  | .spm => 1
  | .inp _ _ => 1
  | .out _ _ => 1
  | .push _ => 1
  | .pop _ => 1
  | .lsl _ => 1
  | .lsr _ => 1
  | .rol _ => 1
  | .ror _ => 1
  | .asr _ => 1
  | .swap _ => 1
  | .bset _ => 1
  | .bclr _ => 1
  | .sbi _ _ => 1
  | .cbi _ _ => 1
  | .bst _ _ => 1
  | .bld _ _ => 1
  | .sec => 1
  | .clc => 1
  | .sen => 1
  | .cln => 1
  | .sez => 1
  | .clz => 1
  | .sei => 1
  | .cli => 1
  | .ses => 1
  | .cls => 1
  | .sev => 1
  | .clv => 1
  | .set => 1
  | .clt => 1
  | .seh => 1
  | .clh => 1

/-- The row that defines the instruction's word (R83 of 30_encoding.md): the spelling itself for the 91
defining rows, the row it is another name of for the 45 others. -/
def Instr.canonical : Instr → Instr
  | .add d r => .add d r
  | .adc d r => .adc d r
  | .adiw d k => .adiw d k
  | .sub d r => .sub d r
  | .subi d k => .subi d k
  | .sbc d r => .sbc d r
  | .sbci d k => .sbci d k
  | .sbiw d k => .sbiw d k
  | .and d r => .and d r
  | .andi d k => .andi d k
  | .or d r => .or d r
  | .ori d k => .ori d k
  | .eor d r => .eor d r
  | .com d => .com d
  | .neg d => .neg d
  | .sbr d k => .ori d k
  | .cbr d k => .andi d (0xFF#8 - k)
  | .inc d => .inc d
  | .dec d => .dec d
  | .tst d => .and d d
  | .clr d => .eor d d
  | .ser d => .ldi d 0xFF#8
  | .mul d r => .mul d r
  | .muls d r => .muls d r
  | .mulsu d r => .mulsu d r
  | .fmul d r => .fmul d r
  | .fmuls d r => .fmuls d r
  | .fmulsu d r => .fmulsu d r
  | .rjmp k => .rjmp k
  | .ijmp => .ijmp
  | .eijmp => .eijmp
  | .jmp k => .jmp k
  | .rcall k => .rcall k
  | .icall => .icall
  | .eicall => .eicall
  | .call k => .call k
  | .ret => .ret
  | .reti => .reti
  | .cpse d r => .cpse d r
  | .cp d r => .cp d r
  | .cpc d r => .cpc d r
  | .cpi d k => .cpi d k
  | .sbrc r b => .sbrc r b
  | .sbrs r b => .sbrs r b
  | .sbic a b => .sbic a b
  | .sbis a b => .sbis a b
  | .brbs s k => .brbs s k
  | .brbc s k => .brbc s k
  | .breq k => .brbs 1#3 k
  | .brne k => .brbc 1#3 k
  | .brcs k => .brbs 0#3 k
  | .brcc k => .brbc 0#3 k
  | .brsh k => .brbc 0#3 k
  | .brlo k => .brbs 0#3 k
  | .brmi k => .brbs 2#3 k
  | .brpl k => .brbc 2#3 k
  | .brge k => .brbc 4#3 k
  | .brlt k => .brbs 4#3 k
  | .brhs k => .brbs 5#3 k
  | .brhc k => .brbc 5#3 k
  | .brts k => .brbs 6#3 k
  | .brtc k => .brbc 6#3 k
  | .brvs k => .brbs 3#3 k
  | .brvc k => .brbc 3#3 k
  | .brie k => .brbs 7#3 k
  | .brid k => .brbc 7#3 k
  | .brk => .brk
  | .nop => .nop
  | .sleep => .sleep
  | .wdr => .wdr
  | .mov d r => .mov d r
  | .movw d r => .movw d r
  | .ldi d k => .ldi d k
  | .lds d k => .lds d k
  | .ldX d => .ldX d
  | .ldXInc d => .ldXInc d
  | .ldXDec d => .ldXDec d
  | .ldY d => .lddY d 0#6
  | .ldYInc d => .ldYInc d
  | .ldYDec d => .ldYDec d
  | .lddY d q => .lddY d q
  | .ldZ d => .lddZ d 0#6
  | .ldZInc d => .ldZInc d
  | .ldZDec d => .ldZDec d
  | .lddZ d q => .lddZ d q
  | .sts k r => .sts k r
  | .stX r => .stX r
  | .stXInc r => .stXInc r
  | .stXDec r => .stXDec r
  | .stY r => .stdY 0#6 r
  | .stYInc r => .stYInc r
  | .stYDec r => .stYDec r
  | .stdY q r => .stdY q r
  | .stZ r => .stdZ 0#6 r
  | .stZInc r => .stZInc r
  | .stZDec r => .stZDec r
  | .stdZ q r => .stdZ q r
  | .lpm => .lpm
  | .lpmZ d => .lpmZ d
  | .lpmZInc d => .lpmZInc d
  | .elpm => .elpm
  | .elpmZ d => .elpmZ d
  | .elpmZInc d => .elpmZInc d
  | .spm => .spm
  | .inp d a => .inp d a
  | .out a r => .out a r
  | .push r => .push r
  | .pop d => .pop d
  | .lsl d => .add d d
  | .lsr d => .lsr d
  | .rol d => .adc d d
  | .ror d => .ror d
  | .asr d => .asr d
  | .swap d => .swap d
  | .bset s => .bset s
  | .bclr s => .bclr s
  | .sbi a b => .sbi a b
  | .cbi a b => .cbi a b
  | .bst r b => .bst r b
  | .bld d b => .bld d b
  | .sec => .bset 0#3
  | .clc => .bclr 0#3
  | .sen => .bset 2#3
  | .cln => .bclr 2#3
  | .sez => .bset 1#3
  | .clz => .bclr 1#3
  | .sei => .bset 7#3
  | .cli => .bclr 7#3
  | .ses => .bset 4#3
  | .cls => .bclr 4#3
  | .sev => .bset 3#3
  | .clv => .bclr 3#3
  | .set => .bset 6#3
  | .clt => .bclr 6#3
  | .seh => .bset 5#3
  | .clh => .bclr 5#3

/-- Format RR: `oooo oord dddd rrrr`. -/
def encRR (op : Nat) (d r : Reg) : Word :=
  BitVec.ofNat 16 (op + r.val / 16 * 512 + d.val * 16 + r.val % 16)

/-- Format RI: `oooo KKKK dddd KKKK`, d from R16. -/
def encRI (op : Nat) (d : Reg) (k : BitVec 8) : Word :=
  BitVec.ofNat 16 (op + k.toNat / 16 * 256 + d.val % 16 * 16 + k.toNat % 16)

/-- Format WI: `1001 011o KKdd KKKK`, d the pair R24, R26, R28 or R30. -/
def encWI (op : Nat) (d : Reg) (k : BitVec 6) : Word :=
  BitVec.ofNat 16 (op + k.toNat / 16 * 64 + (d.val - 24) / 2 * 16 + k.toNat % 16)

/-- Formats R1, LDST and the first word of ABS16: a register in bits 8:4. -/
def encR1 (op : Nat) (d : Reg) : Word := BitVec.ofNat 16 (op + d.val * 16)

/-- `MOVW`: `0000 0001 dddd rrrr`, both fields halved. -/
def encMovw (op : Nat) (d r : Reg) : Word := BitVec.ofNat 16 (op + d.val / 2 * 16 + r.val / 2)

/-- `MULS`: `0000 0010 dddd rrrr`, both from R16. -/
def encMuls (op : Nat) (d r : Reg) : Word := BitVec.ofNat 16 (op + d.val % 16 * 16 + r.val % 16)

/-- Format R3R3: `0000 0011 oddd orrr`, both from R16. -/
def encR3R3 (op : Nat) (d r : Reg) : Word := BitVec.ofNat 16 (op + d.val % 8 * 16 + r.val % 8)

/-- Format REL12: `110o kkkk kkkk kkkk`. -/
def encRel12 (op : Nat) (k : BitVec 12) : Word := BitVec.ofNat 16 (op + k.toNat)

/-- First word of format ABS22: `1001 010k kkkk 11ok`. -/
def encAbs22 (op : Nat) (k : BitVec 22) : Word :=
  BitVec.ofNat 16 (op + k.toNat / 131072 * 16 + k.toNat / 65536 % 2)

/-- Format BR: `1111 0okk kkkk ksss`. -/
def encBr (op : Nat) (s : BitVec 3) (k : BitVec 7) : Word :=
  BitVec.ofNat 16 (op + k.toNat * 8 + s.toNat)

/-- Format RB: `1111 1oor rrrr 0bbb`. -/
def encRB (op : Nat) (r : Reg) (b : BitVec 3) : Word := BitVec.ofNat 16 (op + r.val * 16 + b.toNat)

/-- Format AB: `1001 10oo AAAA Abbb`. -/
def encAB (op : Nat) (a : BitVec 5) (b : BitVec 3) : Word :=
  BitVec.ofNat 16 (op + a.toNat * 8 + b.toNat)

/-- Format IO: `1011 oAAd dddd AAAA`. -/
def encIO (op : Nat) (d : Reg) (a : BitVec 6) : Word :=
  BitVec.ofNat 16 (op + a.toNat / 16 * 512 + d.val * 16 + a.toNat % 16)

/-- Format DISP: `10q0 qqod dddd yqqq`. -/
def encDisp (op : Nat) (d : Reg) (q : BitVec 6) : Word :=
  BitVec.ofNat 16 (op + q.toNat / 32 * 8192 + q.toNat / 8 % 4 * 1024 + d.val * 16 + q.toNat % 8)

/-- Format SF: `1001 0100 osss 1000`. -/
def encSF (op : Nat) (s : BitVec 3) : Word := BitVec.ofNat 16 (op + s.toNat * 16)

/-- The first word of an instruction; an alias has the word of the row it is another name of (R83). -/
def firstWord : Instr → Word
  | .add d r => encRR 0x0C00 d r
  | .adc d r => encRR 0x1C00 d r
  | .adiw d k => encWI 0x9600 d k
  | .sub d r => encRR 0x1800 d r
  | .subi d k => encRI 0x5000 d k
  | .sbc d r => encRR 0x0800 d r
  | .sbci d k => encRI 0x4000 d k
  | .sbiw d k => encWI 0x9700 d k
  | .and d r => encRR 0x2000 d r
  | .andi d k => encRI 0x7000 d k
  | .or d r => encRR 0x2800 d r
  | .ori d k => encRI 0x6000 d k
  | .eor d r => encRR 0x2400 d r
  | .com d => encR1 0x9400 d
  | .neg d => encR1 0x9401 d
  | .sbr d k => encRI 0x6000 d k
  | .cbr d k => encRI 0x7000 d (0xFF#8 - k)
  | .inc d => encR1 0x9403 d
  | .dec d => encR1 0x940A d
  | .tst d => encRR 0x2000 d d
  | .clr d => encRR 0x2400 d d
  | .ser d => encRI 0xE000 d 0xFF#8
  | .mul d r => encRR 0x9C00 d r
  | .muls d r => encMuls 0x0200 d r
  | .mulsu d r => encR3R3 0x0300 d r
  | .fmul d r => encR3R3 0x0308 d r
  | .fmuls d r => encR3R3 0x0380 d r
  | .fmulsu d r => encR3R3 0x0388 d r
  | .rjmp k => encRel12 0xC000 k
  | .ijmp => 0x9409#16
  | .eijmp => 0x9419#16
  | .jmp k => encAbs22 0x940C k
  | .rcall k => encRel12 0xD000 k
  | .icall => 0x9509#16
  | .eicall => 0x9519#16
  | .call k => encAbs22 0x940E k
  | .ret => 0x9508#16
  | .reti => 0x9518#16
  | .cpse d r => encRR 0x1000 d r
  | .cp d r => encRR 0x1400 d r
  | .cpc d r => encRR 0x0400 d r
  | .cpi d k => encRI 0x3000 d k
  | .sbrc r b => encRB 0xFC00 r b
  | .sbrs r b => encRB 0xFE00 r b
  | .sbic a b => encAB 0x9900 a b
  | .sbis a b => encAB 0x9B00 a b
  | .brbs s k => encBr 0xF000 s k
  | .brbc s k => encBr 0xF400 s k
  | .breq k => encBr 0xF000 1#3 k
  | .brne k => encBr 0xF400 1#3 k
  | .brcs k => encBr 0xF000 0#3 k
  | .brcc k => encBr 0xF400 0#3 k
  | .brsh k => encBr 0xF400 0#3 k
  | .brlo k => encBr 0xF000 0#3 k
  | .brmi k => encBr 0xF000 2#3 k
  | .brpl k => encBr 0xF400 2#3 k
  | .brge k => encBr 0xF400 4#3 k
  | .brlt k => encBr 0xF000 4#3 k
  | .brhs k => encBr 0xF000 5#3 k
  | .brhc k => encBr 0xF400 5#3 k
  | .brts k => encBr 0xF000 6#3 k
  | .brtc k => encBr 0xF400 6#3 k
  | .brvs k => encBr 0xF000 3#3 k
  | .brvc k => encBr 0xF400 3#3 k
  | .brie k => encBr 0xF000 7#3 k
  | .brid k => encBr 0xF400 7#3 k
  | .brk => 0x9598#16
  | .nop => 0x0000#16
  | .sleep => 0x9588#16
  | .wdr => 0x95A8#16
  | .mov d r => encRR 0x2C00 d r
  | .movw d r => encMovw 0x0100 d r
  | .ldi d k => encRI 0xE000 d k
  | .lds d _ => encR1 0x9000 d
  | .ldX d => encR1 0x900C d
  | .ldXInc d => encR1 0x900D d
  | .ldXDec d => encR1 0x900E d
  | .ldY d => encR1 0x8008 d
  | .ldYInc d => encR1 0x9009 d
  | .ldYDec d => encR1 0x900A d
  | .lddY d q => encDisp 0x8008 d q
  | .ldZ d => encR1 0x8000 d
  | .ldZInc d => encR1 0x9001 d
  | .ldZDec d => encR1 0x9002 d
  | .lddZ d q => encDisp 0x8000 d q
  | .sts _ r => encR1 0x9200 r
  | .stX r => encR1 0x920C r
  | .stXInc r => encR1 0x920D r
  | .stXDec r => encR1 0x920E r
  | .stY r => encR1 0x8208 r
  | .stYInc r => encR1 0x9209 r
  | .stYDec r => encR1 0x920A r
  | .stdY q r => encDisp 0x8208 r q
  | .stZ r => encR1 0x8200 r
  | .stZInc r => encR1 0x9201 r
  | .stZDec r => encR1 0x9202 r
  | .stdZ q r => encDisp 0x8200 r q
  | .lpm => 0x95C8#16
  | .lpmZ d => encR1 0x9004 d
  | .lpmZInc d => encR1 0x9005 d
  | .elpm => 0x95D8#16
  | .elpmZ d => encR1 0x9006 d
  | .elpmZInc d => encR1 0x9007 d
  | .spm => 0x95E8#16
  | .inp d a => encIO 0xB000 d a
  | .out a r => encIO 0xB800 r a
  | .push r => encR1 0x920F r
  | .pop d => encR1 0x900F d
  | .lsl d => encRR 0x0C00 d d
  | .lsr d => encR1 0x9406 d
  | .rol d => encRR 0x1C00 d d
  | .ror d => encR1 0x9407 d
  | .asr d => encR1 0x9405 d
  | .swap d => encR1 0x9402 d
  | .bset s => encSF 0x9408 s
  | .bclr s => encSF 0x9488 s
  | .sbi a b => encAB 0x9A00 a b
  | .cbi a b => encAB 0x9800 a b
  | .bst r b => encRB 0xFA00 r b
  | .bld d b => encRB 0xF800 d b
  | .sec => 0x9408#16
  | .clc => 0x9488#16
  | .sen => 0x9428#16
  | .cln => 0x94A8#16
  | .sez => 0x9418#16
  | .clz => 0x9498#16
  | .sei => 0x9478#16
  | .cli => 0x94F8#16
  | .ses => 0x9448#16
  | .cls => 0x94C8#16
  | .sev => 0x9438#16
  | .clv => 0x94B8#16
  | .set => 0x9468#16
  | .clt => 0x94E8#16
  | .seh => 0x9458#16
  | .clh => 0x94D8#16

/-- The words of an instruction: the second word of `JMP` and `CALL` holds bits 15:0 of k, that of
`LDS` and `STS` the whole of k (R78). -/
def encode (i : Instr) : List Word :=
  match i with
  | .jmp k | .call k => [firstWord i, BitVec.ofNat 16 k.toNat]
  | .lds _ k | .sts k _ => [firstWord i, k]
  | .add _ _ => [firstWord i]
  | .adc _ _ => [firstWord i]
  | .adiw _ _ => [firstWord i]
  | .sub _ _ => [firstWord i]
  | .subi _ _ => [firstWord i]
  | .sbc _ _ => [firstWord i]
  | .sbci _ _ => [firstWord i]
  | .sbiw _ _ => [firstWord i]
  | .and _ _ => [firstWord i]
  | .andi _ _ => [firstWord i]
  | .or _ _ => [firstWord i]
  | .ori _ _ => [firstWord i]
  | .eor _ _ => [firstWord i]
  | .com _ => [firstWord i]
  | .neg _ => [firstWord i]
  | .sbr _ _ => [firstWord i]
  | .cbr _ _ => [firstWord i]
  | .inc _ => [firstWord i]
  | .dec _ => [firstWord i]
  | .tst _ => [firstWord i]
  | .clr _ => [firstWord i]
  | .ser _ => [firstWord i]
  | .mul _ _ => [firstWord i]
  | .muls _ _ => [firstWord i]
  | .mulsu _ _ => [firstWord i]
  | .fmul _ _ => [firstWord i]
  | .fmuls _ _ => [firstWord i]
  | .fmulsu _ _ => [firstWord i]
  | .rjmp _ => [firstWord i]
  | .ijmp => [firstWord i]
  | .eijmp => [firstWord i]
  | .rcall _ => [firstWord i]
  | .icall => [firstWord i]
  | .eicall => [firstWord i]
  | .ret => [firstWord i]
  | .reti => [firstWord i]
  | .cpse _ _ => [firstWord i]
  | .cp _ _ => [firstWord i]
  | .cpc _ _ => [firstWord i]
  | .cpi _ _ => [firstWord i]
  | .sbrc _ _ => [firstWord i]
  | .sbrs _ _ => [firstWord i]
  | .sbic _ _ => [firstWord i]
  | .sbis _ _ => [firstWord i]
  | .brbs _ _ => [firstWord i]
  | .brbc _ _ => [firstWord i]
  | .breq _ => [firstWord i]
  | .brne _ => [firstWord i]
  | .brcs _ => [firstWord i]
  | .brcc _ => [firstWord i]
  | .brsh _ => [firstWord i]
  | .brlo _ => [firstWord i]
  | .brmi _ => [firstWord i]
  | .brpl _ => [firstWord i]
  | .brge _ => [firstWord i]
  | .brlt _ => [firstWord i]
  | .brhs _ => [firstWord i]
  | .brhc _ => [firstWord i]
  | .brts _ => [firstWord i]
  | .brtc _ => [firstWord i]
  | .brvs _ => [firstWord i]
  | .brvc _ => [firstWord i]
  | .brie _ => [firstWord i]
  | .brid _ => [firstWord i]
  | .brk => [firstWord i]
  | .nop => [firstWord i]
  | .sleep => [firstWord i]
  | .wdr => [firstWord i]
  | .mov _ _ => [firstWord i]
  | .movw _ _ => [firstWord i]
  | .ldi _ _ => [firstWord i]
  | .ldX _ => [firstWord i]
  | .ldXInc _ => [firstWord i]
  | .ldXDec _ => [firstWord i]
  | .ldY _ => [firstWord i]
  | .ldYInc _ => [firstWord i]
  | .ldYDec _ => [firstWord i]
  | .lddY _ _ => [firstWord i]
  | .ldZ _ => [firstWord i]
  | .ldZInc _ => [firstWord i]
  | .ldZDec _ => [firstWord i]
  | .lddZ _ _ => [firstWord i]
  | .stX _ => [firstWord i]
  | .stXInc _ => [firstWord i]
  | .stXDec _ => [firstWord i]
  | .stY _ => [firstWord i]
  | .stYInc _ => [firstWord i]
  | .stYDec _ => [firstWord i]
  | .stdY _ _ => [firstWord i]
  | .stZ _ => [firstWord i]
  | .stZInc _ => [firstWord i]
  | .stZDec _ => [firstWord i]
  | .stdZ _ _ => [firstWord i]
  | .lpm => [firstWord i]
  | .lpmZ _ => [firstWord i]
  | .lpmZInc _ => [firstWord i]
  | .elpm => [firstWord i]
  | .elpmZ _ => [firstWord i]
  | .elpmZInc _ => [firstWord i]
  | .spm => [firstWord i]
  | .inp _ _ => [firstWord i]
  | .out _ _ => [firstWord i]
  | .push _ => [firstWord i]
  | .pop _ => [firstWord i]
  | .lsl _ => [firstWord i]
  | .lsr _ => [firstWord i]
  | .rol _ => [firstWord i]
  | .ror _ => [firstWord i]
  | .asr _ => [firstWord i]
  | .swap _ => [firstWord i]
  | .bset _ => [firstWord i]
  | .bclr _ => [firstWord i]
  | .sbi _ _ => [firstWord i]
  | .cbi _ _ => [firstWord i]
  | .bst _ _ => [firstWord i]
  | .bld _ _ => [firstWord i]
  | .sec => [firstWord i]
  | .clc => [firstWord i]
  | .sen => [firstWord i]
  | .cln => [firstWord i]
  | .sez => [firstWord i]
  | .clz => [firstWord i]
  | .sei => [firstWord i]
  | .cli => [firstWord i]
  | .ses => [firstWord i]
  | .cls => [firstWord i]
  | .sev => [firstWord i]
  | .clv => [firstWord i]
  | .set => [firstWord i]
  | .clt => [firstWord i]
  | .seh => [firstWord i]
  | .clh => [firstWord i]

end Sys2Proof
end

