-- ==== Sys2Proof/Config.lean ====
section
/-! DEFINITION. What an implementation fixes (the parameters of R7 and R8 of 00_scope.md), the two
reference configurations of R9, the events the CPU exchanges with its devices, and the free values.
A `Config` is plain data; the machine's state carries one that no step changes (log 1). -/

namespace Sys2Proof

/-- The optional instruction groups of R8 of 00_scope.md. -/
inductive Group where
  | adiwSbiw | mul | ijmpIcall | eijmpEicall | jmpCall | breakGroup | movw | ldsSts
  | ldStVariants | lddStd | lpmVariants | elpm | spm | pushPop
  deriving DecidableEq, Repr

/-- `HAVE[g]` for each optional group g (R8 of 00_scope.md). -/
structure Groups where
  adiwSbiw : Bool
  mul : Bool
  ijmpIcall : Bool
  eijmpEicall : Bool
  jmpCall : Bool
  breakGroup : Bool
  movw : Bool
  ldsSts : Bool
  ldStVariants : Bool
  lddStd : Bool
  lpmVariants : Bool
  elpm : Bool
  spm : Bool
  pushPop : Bool
  deriving DecidableEq, Repr

/-- `BREAK_MODE` (R190 of 42_mcu_control.md). -/
inductive BreakMode where
  | stop | nop
  deriving DecidableEq, Repr

/-- `SLEEP_MODEL` (R192 of 42_mcu_control.md). -/
inductive SleepModel where
  | sleep | nop
  deriving DecidableEq, Repr

/-- `WDT_MODEL` (R193 of 42_mcu_control.md). -/
inductive WdtModel where
  | absent | device
  deriving DecidableEq, Repr

/-- `SPM_MODEL` (R243 of 43_data_transfer.md). -/
inductive SpmModel where
  | refuse | device
  deriving DecidableEq, Repr

/-- The parameters of R7 of 00_scope.md. -/
structure Config where
  /-- `PC_BITS` -/
  pcBits : Nat
  /-- `PC_BYTES` -/
  pcBytes : Nat
  /-- `FLASH_WORDS` -/
  flashWords : Nat
  /-- `RAM_START` -/
  ramStart : Nat
  /-- `RAM_END` -/
  ramEnd : Nat
  /-- `SP_MASK` -/
  spMask : BitVec 16
  /-- `HAS_RAMPZ` -/
  hasRampz : Bool
  /-- `RAMPZ_MASK` -/
  rampzMask : Byte
  /-- `HAS_EIND` -/
  hasEind : Bool
  /-- `EIND_MASK` -/
  eindMask : Byte
  /-- `HAVE[g]` -/
  groups : Groups
  /-- whether a device with `LD_ST_VARIANTS` and without `LDD_STD` has `LD` and `ST` by plain `Y` and `Z` (R8, R217), or not,
  their words being those of `LDD` and `STD` (R88, R90): the spec's rules differ (log 24) -/
  plainWithoutLdd : Bool
  /-- `N_VECTORS` -/
  nVectors : Nat
  /-- `VECTOR_BASE` -/
  vectorBase : Nat
  /-- `VECTOR_STRIDE` -/
  vectorStride : Nat
  /-- the vectors whose device clears its request when the vector is taken (R303; log 7) -/
  clearedOnEntry : List Nat
  /-- `RESET_PC` -/
  resetPc : Nat
  /-- `SP_RESET` -/
  spReset : BitVec 16
  /-- `BREAK_MODE` -/
  breakMode : BreakMode
  /-- `SLEEP_MODEL` -/
  sleepModel : SleepModel
  /-- `WDT_MODEL` -/
  wdtModel : WdtModel
  /-- `SPM_MODEL` -/
  spmModel : SpmModel
  deriving DecidableEq, Repr

/-- `HAVE[g]` (R8 of 00_scope.md). -/
def Config.has (c : Config) : Group → Bool
  | .adiwSbiw => c.groups.adiwSbiw
  | .mul => c.groups.mul
  | .ijmpIcall => c.groups.ijmpIcall
  | .eijmpEicall => c.groups.eijmpEicall
  | .jmpCall => c.groups.jmpCall
  | .breakGroup => c.groups.breakGroup
  | .movw => c.groups.movw
  | .ldsSts => c.groups.ldsSts
  | .ldStVariants => c.groups.ldStVariants
  | .lddStd => c.groups.lddStd
  | .lpmVariants => c.groups.lpmVariants
  | .elpm => c.groups.elpm
  | .spm => c.groups.spm
  | .pushPop => c.groups.pushPop

/-- The device has the displacement form with displacement q. It has them all with `LDD_STD` (R220); without it, the words with
q = 0, which are those of `LD` and `ST` by plain `Y` and `Z` (R82), where it has `LD_ST_VARIANTS` and the spec's rules are read
that way (R217; log 24). -/
def Config.hasDisplaced (c : Config) (q : BitVec 6) : Bool :=
  c.has .lddStd || (q == 0#6 && c.has .ldStVariants && c.plainWithoutLdd)

/-- The constraints of the table of R7, and R8's last sentence: `EIJMP_EICALL` requires `HAS_EIND`
and `ELPM` requires `HAS_RAMPZ`. -/
abbrev Config.wf (c : Config) : Prop :=
  (1 ≤ c.pcBits ∧ c.pcBits ≤ 22) ∧
  c.pcBytes = (if c.pcBits ≤ 16 then 2 else 3) ∧
  (1 ≤ c.flashWords ∧ c.flashWords ≤ 2 ^ c.pcBits) ∧
  (0x60 ≤ c.ramStart ∧ c.ramStart ≤ c.ramEnd ∧ c.ramEnd ≤ 0xFFFF) ∧
  c.eindMask &&& 0x3F#8 = c.eindMask ∧
  (c.groups.eijmpEicall = true → c.hasEind = true) ∧
  (c.groups.elpm = true → c.hasRampz = true)

/-- Every optional group present. -/
def Groups.all : Groups :=
  ⟨true, true, true, true, true, true, true, true, true, true, true, true, true, true⟩

/-- The reference configuration `T22` of R9 of 00_scope.md. `VECTOR_BASE` and `VECTOR_STRIDE` are those that section 2.7 of
95_test_vectors.md states for it, `RESET_PC` that of its case E13, the four modes those of its opening, and `SP_MASK` the
default of R7; it has both groups that `plainWithoutLdd` (log 24) is about, so that field does not show. R9 leaves `N_VECTORS`, `SP_RESET` and the
requests cleared on entry open: 57, `RAM_END` and all of them (DESIGN CHOICE, log 1, log 2, log 7). -/
def Config.t22 : Config where
  pcBits := 22
  pcBytes := 3
  flashWords := 4194304
  ramStart := 0x0200
  ramEnd := 0x21FF
  spMask := 0xFFFF#16
  hasRampz := true
  rampzMask := 0x7F#8
  hasEind := true
  eindMask := 0x3F#8
  groups := Groups.all
  plainWithoutLdd := true
  nVectors := 57
  vectorBase := 0
  vectorStride := 2
  clearedOnEntry := List.range 57
  resetPc := 0
  spReset := 0x21FF#16
  breakMode := .stop
  sleepModel := .sleep
  wdtModel := .absent
  spmModel := .refuse

/-- The reference configuration `T16` of R9 of 00_scope.md (26 vectors, DESIGN CHOICE, log 1; both groups of log 24). -/
def Config.t16 : Config where
  pcBits := 16
  pcBytes := 2
  flashWords := 65536
  ramStart := 0x0100
  ramEnd := 0x08FF
  spMask := 0xFFFF#16
  hasRampz := false
  rampzMask := 0#8
  hasEind := false
  eindMask := 0#8
  groups := { Groups.all with eijmpEicall := false, elpm := false }
  plainWithoutLdd := true
  nVectors := 26
  vectorBase := 0
  vectorStride := 2
  clearedOnEntry := List.range 26
  resetPc := 0
  spReset := 0x08FF#16
  breakMode := .stop
  sleepModel := .sleep
  wdtModel := .absent
  spmModel := .refuse

/-- One exchange between the CPU and the devices behind the I/O space, the interrupt logic or the
self-programming controller (R58, R193, R243, R303, R330). -/
inductive IoEvent where
  /-- `Io.read(A)` answered v. -/
  | read (a : Nat) (v : Byte)
  /-- `Io.write(A, v)`. -/
  | write (a : Nat) (v : Byte)
  /-- `Io.wdr()`. -/
  | wdr
  /-- `Irq.ack(n)`. -/
  | ack (n : Nat)
  /-- `SPM` executed with this `RAMPZ:Z` and this `R1:R0`. -/
  | spm (z : Nat) (v : Word)
  /-- The devices were reset. -/
  | reset
  deriving DecidableEq, Repr

/-- FREE VALUE (log 5): what `Io.read(A)` answers after the exchanges `h` (newest first), where the
state's script of answers is used up. Nothing is assumed of it (R58, U11). -/
opaque Config.ioAnswer (h : List IoEvent) (a : Nat) : Byte

/-- FREE VALUE (log 4): the byte the SRAM cell at data address `a` holds after power-on: one draw per
location, the same on every read until written (R44, U6, D34). -/
opaque Config.sramPowerOn (a : Nat) : Byte

/-- FREE VALUE (log 9): the bytes of program memory (byte address and value) that the self-programming
controller changes on the `SPM` that is the newest event of `h`, where `SPM_MODEL` = device (R243). -/
opaque Config.spmEdits (h : List IoEvent) : List (Nat × Byte)

end Sys2Proof
end

