-- ==== Sys2Proof/Machine/State.lean ====
section
/-! DEFINITION. The machine's state (10_state.md, R20 to R45), the reasons a step can stop (R301 of
60_exceptions.md) and the state after reset. INVENTORY.md lists every field with its rule. -/

namespace Sys2Proof.Machine

/-- A memory: bytes at addresses, in the canonical form of Machine/Memory.lean. -/
abbrev Memory := List Host.Cell

/-- `mode` (R42(a) of 10_state.md). -/
inductive Mode where
  /-- Executing instructions. -/
  | running
  /-- Entered by `SLEEP` (R192), left by an interrupt or a reset (R320). -/
  | sleeping
  /-- Entered by `BREAK` (R190), left only by a reset (R319). -/
  | stopped
  deriving DecidableEq, Repr

/-- What the outside world does at one instruction boundary (log 6): offers a reset (R330), raises
interrupt requests, withdraws interrupt requests (R303). -/
structure Boundary where
  reset : Bool
  raised : List Nat
  withdrawn : List Nat
  deriving DecidableEq, Repr

/-- The model faults of R301: where no source says what the hardware does, the run ends; no vector is
taken and no later state exists. All are safe: they remove behaviours and add none (R301, last
sentence). -/
inductive Fault where
  /-- The fetched word matches no row of the opcode table (R87). Raised by the fetch. Safe. -/
  | reservedOpcode (w0 : Word) (pc : PcAddr)
  /-- The word belongs to an optional group the device lacks (R88). Raised by the instructions of the
  group. Safe. -/
  | unimplemented (g : Group) (w0 : Word) (pc : PcAddr)
  /-- An encodable but undefined operand combination (R209). Raised by the post-increment and
  pre-decrement loads and stores. Safe. -/
  | undefinedOperands (w0 : Word) (pc : PcAddr)
  /-- A data-space access above `RAM_END` (R52). Raised by every data-space access. Safe. -/
  | badAddress (a : Word)
  /-- A program-memory read at or above `FLASH_WORDS` (R61, R62), at this word address. Raised by the
  fetch, a taken skip's look-ahead, `LPM`, `ELPM`. Safe. -/
  | badFetch (w : Nat)
  /-- `SPM` executed with `SPM_MODEL` = refuse (R243), at this `PC`. Safe. -/
  | unmodelled (pc : PcAddr)
  deriving DecidableEq, Repr

/-- Why an instruction has no meaning in the model. -/
inductive Refusal where
  /-- The instruction has no meaning yet; `exec`'s own arm says so. No arm does. Safe. -/
  | notModelled (mnemonic : String)
  deriving DecidableEq, Repr

/-- The state (R20 of 10_state.md), the inputs the outside world has yet to give (log 5, log 6) and the
device's parameters (log 1). -/
structure State where
  /-- The parameters of R7; no step changes them (log 1). -/
  cfg : Config
  /-- `R[0..31]` (R21). -/
  regs : Vector Byte 32
  /-- `PC`, a word address (R28). -/
  pc : PcAddr
  /-- `SREG` (R30): C 0, Z 1, N 2, V 3, S 4, H 5, T 6, I 7. -/
  sreg : Byte
  /-- `SP` (R36). -/
  sp : Word
  /-- `RAMPZ` (R38). -/
  rampz : Byte
  /-- `EIND` (R39). -/
  eind : Byte
  /-- The SRAM bytes written since power-on, by data address (R41). -/
  sram : Memory
  /-- Program memory, by byte address; a byte not listed is erased (R40, R62). -/
  flash : Memory
  /-- `mode` (R42). -/
  mode : Mode
  /-- `irq_inhibit` (R42, R311). -/
  irqInhibit : Bool
  /-- The pending interrupt requests, strictly rising (R42(c), R303). -/
  requests : List Nat
  /-- What the CPU has exchanged with its devices, newest first: the devices' state (R42(d), R58). -/
  ioTrace : List IoEvent
  /-- MODEL's own (log 5): the answers to the next device reads, in order. -/
  ioInputs : List Byte
  /-- MODEL's own (log 6): what the outside world does at the next boundaries, in order. -/
  env : List Boundary
  deriving DecidableEq, Repr

/-- The state after a power-on reset of a device with parameters `c` whose registers come up holding
`r` (R44, R330): the free draw of U6 is the choice of `r`. Program memory is erased (log 19). -/
def State.powerOn (c : Config) (r : Vector Byte 32) : State where
  cfg := c
  regs := r
  pc := BitVec.ofNat 22 (c.resetPc % 2 ^ c.pcBits)
  sreg := 0#8
  sp := c.spReset &&& c.spMask
  rampz := 0#8
  eind := 0#8
  sram := []
  flash := []
  mode := .running
  irqInhibit := false
  requests := []
  ioTrace := []
  ioInputs := []
  env := []

/-- The machine right after reset: `T22` (R9), registers at the values log 3 names. -/
def State.reset : State := State.powerOn Config.t22 (Vector.replicate 32 0#8)

end Sys2Proof.Machine
end

