-- ==== Sys2Proof/Machine/Flags.lean ====
section
/-! DEFINITION. The status register's bits and every flag computation of the spec (R30 to R32 of
10_state.md, R101 to R105 and the Flags lines of 40_arithmetic_logic.md, R260 and R261 of
44_bit_and_bit_test.md). Each takes the old `SREG` and answers the new one; a flag it does not name
stays as it was. -/

namespace Sys2Proof.Machine

/-- The eight flags of `SREG` (R30 of 10_state.md). -/
inductive Flag where
  | c | z | n | v | s | h | t | i
  deriving DecidableEq, Repr

/-- The flag's bit number in `SREG` (R30 of 10_state.md). -/
def Flag.bit : Flag → Nat
  | .c => 0
  | .z => 1
  | .n => 2
  | .v => 3
  | .s => 4
  | .h => 5
  | .t => 6
  | .i => 7

/-- Bit `b` of a byte. -/
def bitAt (x : Byte) (b : Nat) : Bool := x.getLsbD b

/-- `x` with bit `b` made `v` (`v | (1 << b)` and `v & ~(1 << b)` of R273, R274, R276). -/
def putBit (x : Byte) (b : Nat) (v : Bool) : Byte :=
  if v then x ||| (1#8 <<< b) else x &&& ~~~(1#8 <<< b)

/-- A flag's value in a status byte. -/
def flagOf (sr : Byte) (f : Flag) : Bool := bitAt sr f.bit

/-- A status byte with one flag changed. -/
def putFlag (sr : Byte) (f : Flag) (v : Bool) : Byte := putBit sr f.bit v

/-- N from a result's sign, V as given, and S = N ^ V with the new N and V (R32 of 10_state.md). -/
def putNVS (sr : Byte) (n v : Bool) : Byte :=
  putFlag (putFlag (putFlag sr .n n) .v v) .s (n ^^ v)

/-- Plain Z (R103). -/
def plainZ (r : Byte) (sr : Byte) : Byte := putFlag sr .z (r == 0#8)

/-- Carried Z (R104): `Z <- (r = 0) & Z_old`. -/
def carriedZ (r : Byte) (sr : Byte) : Byte := putFlag sr .z (r == 0#8 && flagOf sr .z)

/-- `AddFlags(a, b, cin, r)` (R101); the equations read `cin` only through `r`. -/
def addFlags (a b r : Byte) (sr : Byte) : Byte :=
  let h := (bitAt a 3 && bitAt b 3) || (bitAt b 3 && !bitAt r 3) || (!bitAt r 3 && bitAt a 3)
  let v := (bitAt a 7 && bitAt b 7 && !bitAt r 7) || (!bitAt a 7 && !bitAt b 7 && bitAt r 7)
  let c := (bitAt a 7 && bitAt b 7) || (bitAt b 7 && !bitAt r 7) || (!bitAt r 7 && bitAt a 7)
  plainZ r (putFlag (putFlag (putNVS sr (bitAt r 7) v) .h h) .c c)

/-- `SubFlags(a, b, cin, r)` (R102): H, V, N, C, S; Z is the caller's (R103 or R104). -/
def subFlags (a b r : Byte) (sr : Byte) : Byte :=
  let h := (!bitAt a 3 && bitAt b 3) || (bitAt b 3 && bitAt r 3) || (bitAt r 3 && !bitAt a 3)
  let v := (bitAt a 7 && !bitAt b 7 && !bitAt r 7) || (!bitAt a 7 && bitAt b 7 && bitAt r 7)
  let c := (!bitAt a 7 && bitAt b 7) || (bitAt b 7 && bitAt r 7) || (bitAt r 7 && !bitAt a 7)
  putFlag (putFlag (putNVS sr (bitAt r 7) v) .h h) .c c

/-- `LogicFlags(r)` (R105): V 0, N, Z, S; C and H not written. -/
def logicFlags (r : Byte) (sr : Byte) : Byte := plainZ r (putNVS sr (bitAt r 7) false)

/-- The flags of `ADIW` (R112), on the 16-bit operand `a` and result `r`; no H. -/
def adiwFlags (a r : Word) (sr : Byte) : Byte :=
  let v := !a.getLsbD 15 && r.getLsbD 15
  let c := !r.getLsbD 15 && a.getLsbD 15
  putFlag (putFlag (putNVS sr (r.getLsbD 15) v) .z (r == 0#16)) .c c

/-- The flags of `SBIW` (R117), on the 16-bit operand `a` and result `r`; no H. -/
def sbiwFlags (a r : Word) (sr : Byte) : Byte :=
  let v := a.getLsbD 15 && !r.getLsbD 15
  let c := r.getLsbD 15 && !a.getLsbD 15
  putFlag (putFlag (putNVS sr (r.getLsbD 15) v) .z (r == 0#16)) .c c

/-- The flags of `COM` (R123): V 0, C 1. -/
def comFlags (r : Byte) (sr : Byte) : Byte :=
  putFlag (plainZ r (putNVS sr (bitAt r 7) false)) .c true

/-- The flags of `NEG` (R124). -/
def negFlags (a r : Byte) (sr : Byte) : Byte :=
  putFlag (putFlag (plainZ r (putNVS sr (bitAt r 7) (r == 0x80#8))) .h (bitAt r 3 || bitAt a 3))
    .c (r != 0#8)

/-- The flags of `INC` (R127): C and H not written. -/
def incFlags (r : Byte) (sr : Byte) : Byte := plainZ r (putNVS sr (bitAt r 7) (r == 0x80#8))

/-- The flags of `DEC` (R128): C and H not written. -/
def decFlags (r : Byte) (sr : Byte) : Byte := plainZ r (putNVS sr (bitAt r 7) (r == 0x7F#8))

/-- The flags of the multiplies (R132 to R137): C from bit 15 of the product `p`, Z from the 16 bits
written. -/
def mulFlags (p r : Word) (sr : Byte) : Byte :=
  putFlag (putFlag sr .c (p.getLsbD 15)) .z (r == 0#16)

/-- `ShiftRightFlags(a, res)` (R260): C the bit shifted out, V = N ^ C, S = N ^ V. -/
def shiftRightFlags (a r : Byte) (sr : Byte) : Byte :=
  plainZ r (putFlag (putNVS sr (bitAt r 7) (bitAt r 7 ^^ bitAt a 0)) .c (bitAt a 0))

/-- The flags of `LSL` and `ROL` in their own rows' terms (R261, R265, R267). -/
def shiftLeftFlags (a r : Byte) (sr : Byte) : Byte :=
  plainZ r (putFlag (putFlag (putNVS sr (bitAt r 7) (bitAt r 7 ^^ bitAt a 7)) .h (bitAt a 3))
    .c (bitAt a 7))

end Sys2Proof.Machine
end

