-- ==== Sys2Proof/Machine/Memory.lean ====
section
/-! DEFINITION. The two memories as lists of (address, byte) in one canonical form: addresses strictly
rising, and in program memory no byte listed that is erased. An SRAM address not listed holds no
value and reads as its power-on draw (R41, R44 of 10_state.md; log 4); a program byte not listed is
erased and reads 0xFF (R44; U15 of 93_implementation_defined.md). -/

namespace Sys2Proof.Machine

/-- The byte listed at an address, if any. -/
def Memory.read : Memory → Nat → Option Byte
  | [], _ => none
  | (a, v) :: m, b => if a = b then some v else Memory.read m b

/-- List `w` at address `b`, in rising order, in the place of what was listed there. -/
def Memory.write : Memory → Nat → Byte → Memory
  | [], b, w => [(b, w)]
  | (a, v) :: m, b, w =>
    if b < a then (b, w) :: (a, v) :: m
    else if a = b then (b, w) :: m
    else (a, v) :: Memory.write m b w

/-- List nothing at address `b`. -/
def Memory.erase : Memory → Nat → Memory
  | [], _ => []
  | (a, v) :: m, b => if a = b then m else (a, v) :: Memory.erase m b

/-- Addresses strictly rising and every entry within `[lo, hi)`. -/
def Memory.rising (lo hi : Nat) : Memory → Bool
  | [] => true
  | (a, _) :: m => decide (lo ≤ a ∧ a < hi) && Memory.rising (a + 1) hi m

/-- The canonical form of SRAM: strictly rising addresses within `RAM_START` to `RAM_END`. An address
not listed holds no value, so no entry can equal one. -/
abbrev Memory.wf (c : Config) (m : Memory) : Prop := Memory.rising c.ramStart (c.ramEnd + 1) m = true

/-- The byte an erased program-memory address reads as (R44, U15). -/
def erasedByte : Byte := 0xFF#8

/-- The canonical form of program memory: strictly rising byte addresses below `2 * FLASH_WORDS`, no
erased byte listed. -/
abbrev Memory.flashWf (c : Config) (m : Memory) : Prop :=
  Memory.rising 0 (2 * c.flashWords) m = true ∧ m.all (fun cell => cell.2 != erasedByte) = true

/-- The byte of SRAM at a data address: the byte last written, else its power-on draw (R41, R52). -/
def sramByte (m : Memory) (a : Nat) : Byte := (Memory.read m a).getD (Config.sramPowerOn a)

/-- The byte of program memory at a byte address (R62), within the device's program memory. -/
def flashByte (m : Memory) (b : Nat) : Byte := (Memory.read m b).getD erasedByte

/-- Put a byte into program memory; an erased byte is not listed. -/
def flashPut (m : Memory) (b : Nat) (v : Byte) : Memory :=
  if v = erasedByte then Memory.erase m b else Memory.write m b v

end Sys2Proof.Machine
end

