-- ==== Sys2Proof/Machine/Ops.lean ====
section
/-! DEFINITION. The named operations every meaning is built from: registers and pairs, the program
counter, the data space, program memory, the stack, skips, the optional-group check, taking an interrupt
and returning from one, reset, and what the outside world does between instructions (10_state.md,
20_memory.md, 41_branch.md section 1, 60_exceptions.md, 70_reset_and_hazards.md). -/

namespace Sys2Proof.Machine

/-- What an instruction or a step answers. -/
abbrev Result := Host.Outcome State Fault Refusal

/-! ## General registers, pairs, flags -/

/-- The low byte of a 16-bit value (R23). -/
def loByte (w : Word) : Byte := w.extractLsb' 0 8

/-- The high byte of a 16-bit value (R23). -/
def hiByte (w : Word) : Byte := w.extractLsb' 8 8

/-- `R[d]` (R21). -/
def readReg (s : State) (d : Reg) : Byte := s.regs[d.val]

/-- `R[d] <- v` (R21, R22: no register is hardwired). -/
def writeReg (d : Reg) (v : Byte) (s : State) : State := { s with regs := s.regs.set d.val v }

/-- `R[d+1:d]`, the high byte in `R[d+1]` (R23). -/
def readPair (s : State) (d : Reg) : Word := readReg s (d + 1) ++ readReg s d

/-- `R[d+1:d] <- v` (R23). -/
def writePair (d : Reg) (v : Word) (s : State) : State :=
  writeReg (d + 1) (hiByte v) (writeReg d (loByte v) s)

/-- `SREG <- f(SREG)`. -/
def mapSreg (f : Byte → Byte) (s : State) : State := { s with sreg := f s.sreg }

/-- One flag of `SREG` (R30). -/
def readFlag (s : State) (f : Flag) : Bool := flagOf s.sreg f

/-- The carry flag as a number (the `C` of `ADC`, `SBC`, `SBCI`, `CPC`). -/
def carryByte (s : State) : Byte := if readFlag s .c then 1#8 else 0#8

/-! ## The program counter (R28) -/

/-- `PC <- t`, stored modulo 2^`PC_BITS` (R28). -/
def setPc (t : Nat) (s : State) : State := { s with pc := BitVec.ofNat 22 (t % 2 ^ s.cfg.pcBits) }

/-- `PC <- PC + n` (R14, R28). -/
def advance (n : Nat) (s : State) : State := setPc (s.pc.toNat + n) s

/-- `(PC + k + 1) mod 2^PC_BITS`, `k` signed (R140). -/
def relTarget (s : State) (k : Int) : Nat :=
  (((s.pc.toNat : Int) + k + 1) % ((2 ^ s.cfg.pcBits : Nat) : Int)).toNat

/-- The step of an instruction `n` words long that ends in state `s` but for `PC <- PC + n`. -/
def nextAfter (n : Nat) (s : State) : Result := .next (advance n s)

/-- The same, where an access of the instruction may fault; a fault leaves no state (R205, R301). -/
def finish (n : Nat) : Except Fault State → Result
  | .ok s => .next (advance n s)
  | .error f => .fault f

/-! ## `SP`, `RAMPZ`, `EIND`: bits outside the mask read as zero and ignore writes (R36, R38, R39) -/

/-- `SP` (R36). -/
def readSp (s : State) : Word := s.sp &&& s.cfg.spMask

/-- `SP <- v` (R36). -/
def writeSp (v : Word) (s : State) : State := { s with sp := v &&& s.cfg.spMask }

/-- `RAMPZ` (R38). -/
def readRampz (s : State) : Byte := s.rampz &&& s.cfg.rampzMask

/-- `RAMPZ <- v` (R38). -/
def writeRampz (v : Byte) (s : State) : State := { s with rampz := v &&& s.cfg.rampzMask }

/-- `EIND` (R39). -/
def readEind (s : State) : Byte := s.eind &&& s.cfg.eindMask

/-- `EIND <- v` (R39). -/
def writeEind (v : Byte) (s : State) : State := { s with eind := v &&& s.cfg.eindMask }

/-! ## Devices (R58, R59) -/

/-- `Io.read(A)`: the next answer of the script, or the free answer where the script is used up; the
exchange is recorded (log 5). -/
def ioRead (a : Nat) (s : State) : Byte × State :=
  match s.ioInputs with
  | v :: rest => (v, { s with ioInputs := rest, ioTrace := .read a v :: s.ioTrace })
  | [] =>
    (Config.ioAnswer s.ioTrace a, { s with ioTrace := .read a (Config.ioAnswer s.ioTrace a) :: s.ioTrace })

/-- Tell the devices of an event: `Io.write(A, v)`, `Io.wdr()`, `Irq.ack(n)`, `SPM`, a reset. -/
def tellDevices (e : IoEvent) (s : State) : State := { s with ioTrace := e :: s.ioTrace }

/-! ## The data space (R50 to R56) -/

/-- What a data-space address reaches (R52, R55). -/
inductive Region where
  | register (d : Reg)
  | sreg
  | sph
  | spl
  | eind
  | rampz
  /-- A device register, by I/O address `A = a - 0x20`. -/
  | device (io : Nat)
  | sram
  /-- Above `RAM_END`: not implemented. -/
  | absent
  deriving DecidableEq, Repr

/-- The CPU's own registers in the I/O space, else a device (R55, R58). -/
def ioRegion (c : Config) (io : Nat) : Region :=
  if io = 0x3F then .sreg
  else if io = 0x3E then .sph
  else if io = 0x3D then .spl
  else if io = 0x3C ∧ c.hasEind then .eind
  else if io = 0x3B ∧ c.hasRampz then .rampz
  else .device io

/-- The data-space map (R52). -/
def regionOf (c : Config) (a : Word) : Region :=
  if a.toNat < 0x20 then .register (Fin.ofNat 32 a.toNat)
  else if a.toNat < 0x60 then ioRegion c (a.toNat - 0x20)
  else if a.toNat < c.ramStart then .device (a.toNat - 0x20)
  else if a.toNat ≤ c.ramEnd then .sram
  else .absent

/-- `MemRead(a, 1)` (R53). -/
def memRead (a : Word) (s : State) : Except Fault (Byte × State) :=
  match regionOf s.cfg a with
  | .register d => .ok (readReg s d, s)
  | .sreg => .ok (s.sreg, s)
  | .sph => .ok (hiByte (readSp s), s)
  | .spl => .ok (loByte (readSp s), s)
  | .eind => .ok (readEind s, s)
  | .rampz => .ok (readRampz s, s)
  | .device io => .ok (ioRead io s)
  | .sram => .ok (sramByte s.sram a.toNat, s)
  | .absent => .error (.badAddress a)

/-- `MemWrite(a, 1, v)` (R54). -/
def memWrite (a : Word) (v : Byte) (s : State) : Except Fault State :=
  match regionOf s.cfg a with
  | .register d => .ok (writeReg d v s)
  | .sreg => .ok { s with sreg := v }
  | .sph => .ok (writeSp (v ++ loByte (readSp s)) s)
  | .spl => .ok (writeSp (hiByte (readSp s) ++ v) s)
  | .eind => .ok (writeEind v s)
  | .rampz => .ok (writeRampz v s)
  | .device io => .ok (tellDevices (.write io v) s)
  | .sram => .ok { s with sram := Memory.write s.sram a.toNat v }
  | .absent => .error (.badAddress a)

/-- The data address of I/O address `A`: `A + 0x20` (R56). -/
def ioAddress {n : Nat} (a : BitVec n) : Word := BitVec.ofNat 16 (a.toNat + 0x20)

/-! ## Program memory (R61, R62) -/

/-- The word at word address `w`, within program memory; little-endian in its bytes (R62). -/
def flashWord (m : Memory) (w : Nat) : Word := wordOf (flashByte m (2 * w)) (flashByte m (2 * w + 1))

/-- `PmWord(w)` (R61). -/
def pmWord (w : Nat) (s : State) : Except Fault Word :=
  if w % 2 ^ s.cfg.pcBits < s.cfg.flashWords then .ok (flashWord s.flash (w % 2 ^ s.cfg.pcBits))
  else .error (.badFetch (w % 2 ^ s.cfg.pcBits))

/-- `PmByte(b)` (R62); a byte whose word address is beyond `FLASH_WORDS` faults, with no reduction of the
word address (log 11). -/
def pmByte (b : Nat) (s : State) : Except Fault Byte :=
  if b / 2 < s.cfg.flashWords then .ok (flashByte s.flash b) else .error (.badFetch (b / 2))

/-- The program memory after the self-programming controller's changes; those outside it are dropped
(R243; log 9). -/
def applyEdits (c : Config) : List (Nat × Byte) → Memory → Memory
  | [], m => m
  | (b, v) :: rest, m => applyEdits c rest (if b < 2 * c.flashWords then flashPut m b v else m)

/-! ## The stack (R64, R65) -/

/-- `Push(v)`: `MemWrite(SP, 1, v)`; then `SP <- (SP - 1) & SP_MASK` (R64; log 14). -/
def push (v : Byte) (s : State) : Except Fault State :=
  match memWrite (readSp s) v s with
  | .ok s1 => .ok (writeSp (readSp s1 - 1#16) s1)
  | .error f => .error f

/-- `Pop()`: `SP <- (SP + 1) & SP_MASK`; then `MemRead(SP, 1)` (R64). -/
def pop (s : State) : Except Fault (Byte × State) :=
  memRead (readSp (writeSp (readSp s + 1#16) s)) (writeSp (readSp s + 1#16) s)

/-- Byte `i` of a return address. -/
def addressByte (t i : Nat) : Byte := BitVec.ofNat 8 (t / 2 ^ (8 * i))

/-- `PushPC(t)`: the low byte first, so at the highest address (R65). `t` is taken modulo 2^`PC_BITS`. -/
def pushPc (t : Nat) (s : State) : Except Fault State :=
  let v := t % 2 ^ s.cfg.pcBits
  match push (addressByte v 0) s with
  | .error f => .error f
  | .ok s1 =>
    match push (addressByte v 1) s1 with
    | .error f => .error f
    | .ok s2 => if s.cfg.pcBytes = 3 then push (addressByte v 2) s2 else .ok s2

/-- The top byte of a popped address: `if PC_BYTES = 3, hi <- Pop() else hi <- 0` (R65). -/
def popHigh (s : State) : Except Fault (Byte × State) :=
  if s.cfg.pcBytes = 3 then pop s else .ok (0#8, s)

/-- `PopPC()`: the most significant byte first; the address is reduced where it is stored (R65). -/
def popPc (s : State) : Except Fault (Nat × State) :=
  match popHigh s with
  | .error f => .error f
  | .ok (hi, s1) =>
    match pop s1 with
    | .error f => .error f
    | .ok (mid, s2) =>
      match pop s2 with
      | .error f => .error f
      | .ok (lo, s3) => .ok (hi.toNat * 2 ^ 16 + mid.toNat * 2 ^ 8 + lo.toNat, s3)

/-! ## Control flow (R140 to R144) -/

/-- A call of an instruction `n` words long to `t`: `PushPC(PC + n); PC <- t` (R141). -/
def callTo (n t : Nat) (s : State) : Result :=
  match pushPc (s.pc.toNat + n) s with
  | .ok s1 => .next (setPc t s1)
  | .error f => .fault f

/-- A conditional branch by `k`: `PC <- PC + k + 1` or `PC <- PC + 1` (R144). -/
def branchIf (cond : Bool) (k : BitVec 7) (s : State) : Result :=
  .next (setPc (if cond then relTarget s k.toInt else s.pc.toNat + 1) s)

/-- How many words a skip passes: its own, and those of the next instruction, whose first word is `w`
(R77, R143). -/
def skipWords (w : Word) : Nat := if isTwoWord w then 3 else 2

/-- A skip (R143). With the condition false, what stands at `PC + 1` has no effect. -/
def skipIf (cond : Bool) (s : State) : Result :=
  match pmWord (s.pc.toNat + 1) s with
  | .ok w => .next (advance (if cond then skipWords w else 1) s)
  | .error f => if cond then .fault f else .next (advance 1 s)

/-! ## Optional groups (R8, R88) -/

/-- Run the meaning of an instruction of optional group `g`, which faults where the device lacks the group
(R88). -/
def ifHas (g : Group) (i : Instr) (run : State → Result) (s : State) : Result :=
  if s.cfg.has g then run s else .fault (.unimplemented g (firstWord i) s.pc)

/-- Run the meaning of a displacement form with displacement q, or of a plain `LD` or `ST` by `Y` or `Z`, whose word is that
with q = 0 (R82). Where the device lacks it the fault is that of its word's row, of the group `LDD_STD` (R88, R90; log 24). -/
def ifHasDisplaced (q : BitVec 6) (i : Instr) (run : State → Result) (s : State) : Result :=
  if s.cfg.hasDisplaced q then run s else .fault (.unimplemented .lddStd (firstWord i) s.pc)

/-! ## Interrupts (R303 to R311) -/

/-- `Irq.pending()`: the lowest vector number n with a request, 1 ≤ n < `N_VECTORS` (R303, R306). -/
def pendingRequest (s : State) : Option Nat :=
  (List.range s.cfg.nVectors).find? (fun n => decide (1 ≤ n) && s.requests.contains n)

/-- The vector to enter at this boundary, if any: I = 1, `irq_inhibit` = 0 and a pending request, in a mode
other than stopped (R304, R305, R320). -/
def interruptToTake (s : State) : Option Nat :=
  if s.mode = .stopped ∨ readFlag s .i = false ∨ s.irqInhibit = true then none else pendingRequest s

/-- The word address of vector `n` (R308). -/
def vectorAddress (c : Config) (n : Nat) : Nat := c.vectorBase + n * c.vectorStride

/-- `Irq.ack(n)`: the devices are told, and a request of the kind that clears on entry is cleared (R303;
log 7). -/
def ackRequest (n : Nat) (s : State) : State :=
  tellDevices (.ack n)
    { s with requests := if s.cfg.clearedOnEntry.contains n then s.requests.erase n else s.requests }

/-- TAKING AN INTERRUPT, vector `n`: `PushPC(PC); I <- 0; mode <- running; PC <- VECTOR_BASE + n *
VECTOR_STRIDE; Irq.ack(n)` (R307). Nothing else is saved. -/
def enterInterrupt (n : Nat) (s : State) : Result :=
  match pushPc s.pc.toNat s with
  | .ok s1 =>
    .next (ackRequest n (setPc (vectorAddress s.cfg n)
      { mapSreg (fun sr => putFlag sr .i false) s1 with mode := .running }))
  | .error f => .fault f

/-- `PC <- PopPC()` (R142). -/
def returnTo (s : State) : Except Fault State :=
  match popPc s with
  | .ok (t, s1) => .ok (setPc t s1)
  | .error f => .error f

/-- RETURN FROM INTERRUPT: `PC <- PopPC(); I <- 1; irq_inhibit <- 1` (R309). Nothing else is restored. -/
def leaveInterrupt (s : State) : Except Fault State :=
  match returnTo s with
  | .ok s1 => .ok { mapSreg (fun sr => putFlag sr .i true) s1 with irqInhibit := true }
  | .error f => .error f

/-- `if I = 0 then irq_inhibit <- 1; I <- 1` (R263, R283, R311). -/
def enableInterrupts (s : State) : State :=
  mapSreg (fun sr => putFlag sr .i true) { s with irqInhibit := s.irqInhibit || !readFlag s .i }

/-! ## Reset and the instruction boundary (R330; log 6, log 8) -/

/-- The event `reset` (R330): registers, SRAM and program memory are kept, the rest takes its value of
R44, and the devices are told. -/
def resetEvent (s : State) : State :=
  tellDevices .reset
    { setPc s.cfg.resetPc s with
      sreg := 0#8
      sp := s.cfg.spReset &&& s.cfg.spMask
      rampz := 0#8
      eind := 0#8
      mode := .running
      irqInhibit := false
      requests := [] }

/-- The requests after a boundary: those pending or raised, less those withdrawn (R303; log 6). -/
def requestsAfter (nVectors : Nat) (pending : List Nat) (b : Boundary) : List Nat :=
  (List.range nVectors).filter fun n =>
    decide (1 ≤ n) && (pending.contains n || b.raised.contains n) && !b.withdrawn.contains n

/-- What the outside world does at this boundary: whether it offers a reset, and the state with its
requests raised and withdrawn. An exhausted script is a quiet world (log 6). -/
def takeBoundary (s : State) : Bool × State :=
  match s.env with
  | [] => (false, s)
  | b :: rest => (b.reset, { s with env := rest, requests := requestsAfter s.cfg.nVectors s.requests b })

end Sys2Proof.Machine
end

