-- ==== Sys2Proof/Machine/Operands.lean ====
section
/-! DEFINITION. The operand forms of the data transfer instructions: pointer registers, post-increment,
pre-decrement and displacement (R201 to R203), the undefined operand combinations (R209), program-memory
addresses (R207, R242), and the operands of the multiplies (R132 to R137). -/

namespace Sys2Proof.Machine

/-- The pointer registers (R23). -/
inductive Pointer where
  | x | y | z
  deriving DecidableEq, Repr

/-- The register holding the pointer's low byte (R23). -/
def Pointer.low : Pointer → Reg
  | .x => 26
  | .y => 28
  | .z => 30

/-- The pointer's value (R23). -/
def readPointer (s : State) (p : Pointer) : Word := readPair s p.low

/-- A write of both bytes of the pointer (R201). -/
def writePointer (p : Pointer) (v : Word) (s : State) : State := writePair p.low v s

/-- The address of a displacement form, `(P + q) mod 65536` (R202). -/
def displaced (s : State) (p : Pointer) (q : BitVec 6) : Word := readPointer s p + q.setWidth 16

/-- One of the two registers of a pointer (R209). -/
def Pointer.holds (p : Pointer) (d : Reg) : Bool := d == p.low || d == p.low + 1

/-- Run a post-increment or pre-decrement form, unless its data register is one of its pointer's two: then
`Fault.UndefinedOperands` (R209). -/
def ifDefined (p : Pointer) (d : Reg) (i : Instr) (run : State → Result) (s : State) : Result :=
  if p.holds d then .fault (.undefinedOperands (firstWord i) s.pc) else run s

/-! ## Loads -/

/-- `R[d] <- MemRead(a, 1)`. -/
def loadFrom (a : Word) (d : Reg) (s : State) : Except Fault State :=
  match memRead a s with
  | .ok (v, s1) => .ok (writeReg d v s1)
  | .error f => .error f

/-- `a <- P; R[d] <- MemRead(a, 1); P <- (a + 1) mod 65536` (R201). -/
def loadPostInc (p : Pointer) (d : Reg) (s : State) : Except Fault State :=
  match loadFrom (readPointer s p) d s with
  | .ok s1 => .ok (writePointer p (readPointer s p + 1#16) s1)
  | .error f => .error f

/-- `a <- (P - 1) mod 65536; P <- a; R[d] <- MemRead(a, 1)` (R201). -/
def loadPreDec (p : Pointer) (d : Reg) (s : State) : Except Fault State :=
  loadFrom (readPointer s p - 1#16) d (writePointer p (readPointer s p - 1#16) s)

/-! ## Stores -/

/-- `a <- P; MemWrite(a, 1, R[r]); P <- (a + 1) mod 65536` (R201, R227: the increment applies to the value
of `P` read before the store). -/
def storePostInc (p : Pointer) (r : Reg) (s : State) : Except Fault State :=
  match memWrite (readPointer s p) (readReg s r) s with
  | .ok s1 => .ok (writePointer p (readPointer s p + 1#16) s1)
  | .error f => .error f

/-- `v <- R[r]; a <- (P - 1) mod 65536; P <- a; MemWrite(a, 1, v)` (R201, R228). A store that falls on its own
pointer register comes before the update, which D17 rules is written after it; anywhere else the order of the two
writes does not show (log 15). -/
def storePreDec (p : Pointer) (r : Reg) (s : State) : Except Fault State :=
  match memWrite (readPointer s p - 1#16) (readReg s r) s with
  | .ok s1 => .ok (writePointer p (readPointer s p - 1#16) s1)
  | .error f => .error f

/-! ## Program memory -/

/-- `RAMPZ * 65536 + Z` (R63). -/
def extendedZ (s : State) : Nat := (readRampz s).toNat * 65536 + (readPointer s .z).toNat

/-- `R[d] <- PmByte(b)` (R207). -/
def loadProgram (b : Nat) (d : Reg) (s : State) : Except Fault State :=
  match pmByte b s with
  | .ok v => .ok (writeReg d v s)
  | .error f => .error f

/-- `a <- Z; R[d] <- PmByte(a); Z <- (a + 1) mod 65536` (R239). -/
def loadProgramInc (d : Reg) (s : State) : Except Fault State :=
  match loadProgram (readPointer s .z).toNat d s with
  | .ok s1 => .ok (writePointer .z (readPointer s .z + 1#16) s1)
  | .error f => .error f

/-- `RAMPZ:Z <- a`: `Z <- a[15:0]; RAMPZ <- a[23:16] & RAMPZ_MASK` (R242). -/
def writeExtendedZ (a : Nat) (s : State) : State :=
  writeRampz (BitVec.ofNat 8 (a / 65536)) (writePointer .z (BitVec.ofNat 16 a) s)

/-- `a <- RAMPZ:Z; R[d] <- PmByte(a); RAMPZ:Z <- (a + 1) mod 2^24` (R242). -/
def loadExtendedInc (d : Reg) (s : State) : Except Fault State :=
  match loadProgram (extendedZ s) d s with
  | .ok s1 => .ok (writeExtendedZ ((extendedZ s + 1) % 2 ^ 24) s1)
  | .error f => .error f

/-! ## Multiplies (R132 to R137) -/

/-- `zext_8(a) * zext_8(b)` (R132, R135). -/
def productUU (a b : Byte) : Word := a.setWidth 16 * b.setWidth 16

/-- `(sext_8(a) * sext_8(b)) mod 65536` (R133, R136). -/
def productSS (a b : Byte) : Word := a.signExtend 16 * b.signExtend 16

/-- `(sext_8(a) * zext_8(b)) mod 65536` (R134, R137). -/
def productSU (a b : Byte) : Word := a.signExtend 16 * b.setWidth 16

/-- `R[1:0] <- r` with C from bit 15 of the product `p` and Z from `r` (R132 to R137). -/
def writeProduct (p r : Word) (s : State) : State := mapSreg (mulFlags p r) (writePair 0 r s)

end Sys2Proof.Machine
end

