-- ==== Sys2Proof/Machine/Arith.lean ====
section
/-! DEFINITION. Rows 1 to 28 of the opcode table: arithmetic and logic (40_arithmetic_logic.md, R100 to R137). Each
reads its operands, computes, then writes its destination and flags (R100). -/

namespace Sys2Proof.Machine

/-- `ADD Rd, Rr`, Add without Carry (R110). -/
def execAdd (d : Reg) (r : Reg) (s : State) : Result :=
  let a := readReg s d
  let b := readReg s r
  let res := a + b
  nextAfter 1 (mapSreg (addFlags a b res) (writeReg d res s))

/-- `ADC Rd, Rr`, Add with Carry (R111). -/
def execAdc (d : Reg) (r : Reg) (s : State) : Result :=
  let a := readReg s d
  let b := readReg s r
  let res := a + b + carryByte s
  nextAfter 1 (mapSreg (addFlags a b res) (writeReg d res s))

/-- `ADIW Rd, K`, Add Immediate to Word (R112). -/
def execAdiw (d : Reg) (k : BitVec 6) (s : State) : Result :=
  ifHas .adiwSbiw (.adiw d k) (fun s =>
    let a := readPair s d
    let res := a + k.setWidth 16
    nextAfter 1 (mapSreg (adiwFlags a res) (writePair d res s))) s

/-- `SUB Rd, Rr`, Subtract without Carry (R113). -/
def execSub (d : Reg) (r : Reg) (s : State) : Result :=
  let a := readReg s d
  let b := readReg s r
  let res := a - b
  nextAfter 1 (mapSreg (fun sr => plainZ res (subFlags a b res sr)) (writeReg d res s))

/-- `SUBI Rd, K`, Subtract Immediate (R114). -/
def execSubi (d : Reg) (k : BitVec 8) (s : State) : Result :=
  let a := readReg s d
  let res := a - k
  nextAfter 1 (mapSreg (fun sr => plainZ res (subFlags a k res sr)) (writeReg d res s))

/-- `SBC Rd, Rr`, Subtract with Carry (R115). -/
def execSbc (d : Reg) (r : Reg) (s : State) : Result :=
  let a := readReg s d
  let b := readReg s r
  let res := a - b - carryByte s
  nextAfter 1 (mapSreg (fun sr => carriedZ res (subFlags a b res sr)) (writeReg d res s))

/-- `SBCI Rd, K`, Subtract Immediate with Carry (R116). -/
def execSbci (d : Reg) (k : BitVec 8) (s : State) : Result :=
  let a := readReg s d
  let res := a - k - carryByte s
  nextAfter 1 (mapSreg (fun sr => carriedZ res (subFlags a k res sr)) (writeReg d res s))

/-- `SBIW Rd, K`, Subtract Immediate from Word (R117). -/
def execSbiw (d : Reg) (k : BitVec 6) (s : State) : Result :=
  ifHas .adiwSbiw (.sbiw d k) (fun s =>
    let a := readPair s d
    let res := a - k.setWidth 16
    nextAfter 1 (mapSreg (sbiwFlags a res) (writePair d res s))) s

/-- `AND Rd, Rr`, Logical AND (R118). -/
def execAnd (d : Reg) (r : Reg) (s : State) : Result :=
  let res := readReg s d &&& readReg s r
  nextAfter 1 (mapSreg (logicFlags res) (writeReg d res s))

/-- `ANDI Rd, K`, Logical AND with Immediate (R119). -/
def execAndi (d : Reg) (k : BitVec 8) (s : State) : Result :=
  let res := readReg s d &&& k
  nextAfter 1 (mapSreg (logicFlags res) (writeReg d res s))

/-- `OR Rd, Rr`, Logical OR (R120). -/
def execOr (d : Reg) (r : Reg) (s : State) : Result :=
  let res := readReg s d ||| readReg s r
  nextAfter 1 (mapSreg (logicFlags res) (writeReg d res s))

/-- `ORI Rd, K`, Logical OR with Immediate (R121). -/
def execOri (d : Reg) (k : BitVec 8) (s : State) : Result :=
  let res := readReg s d ||| k
  nextAfter 1 (mapSreg (logicFlags res) (writeReg d res s))

/-- `EOR Rd, Rr`, Exclusive OR (R122). -/
def execEor (d : Reg) (r : Reg) (s : State) : Result :=
  let res := readReg s d ^^^ readReg s r
  nextAfter 1 (mapSreg (logicFlags res) (writeReg d res s))

/-- `COM Rd`, One's Complement (R123). -/
def execCom (d : Reg) (s : State) : Result :=
  let res := 0xFF#8 - readReg s d
  nextAfter 1 (mapSreg (comFlags res) (writeReg d res s))

/-- `NEG Rd`, Two's Complement (R124). -/
def execNeg (d : Reg) (s : State) : Result :=
  let a := readReg s d
  let res := 0#8 - a
  nextAfter 1 (mapSreg (negFlags a res) (writeReg d res s))

/-- `SBR Rd, K`, Set Bit(s) in Register (R125). -/
def execSbr (d : Reg) (k : BitVec 8) (s : State) : Result :=
  let res := readReg s d ||| k
  nextAfter 1 (mapSreg (logicFlags res) (writeReg d res s))

/-- `CBR Rd, K`, Clear Bit(s) in Register (R126). -/
def execCbr (d : Reg) (k : BitVec 8) (s : State) : Result :=
  let res := readReg s d &&& (0xFF#8 - k)
  nextAfter 1 (mapSreg (logicFlags res) (writeReg d res s))

/-- `INC Rd`, Increment (R127). -/
def execInc (d : Reg) (s : State) : Result :=
  let res := readReg s d + 1#8
  nextAfter 1 (mapSreg (incFlags res) (writeReg d res s))

/-- `DEC Rd`, Decrement (R128). -/
def execDec (d : Reg) (s : State) : Result :=
  let res := readReg s d - 1#8
  nextAfter 1 (mapSreg (decFlags res) (writeReg d res s))

/-- `TST Rd`, Test for Zero or Minus (R129). -/
def execTst (d : Reg) (s : State) : Result :=
  let res := readReg s d &&& readReg s d
  nextAfter 1 (mapSreg (logicFlags res) (writeReg d res s))

/-- `CLR Rd`, Clear Register (R130). -/
def execClr (d : Reg) (s : State) : Result :=
  let res := readReg s d ^^^ readReg s d
  nextAfter 1 (mapSreg (logicFlags res) (writeReg d res s))

/-- `SER Rd`, Set Register (R131). -/
def execSer (d : Reg) (s : State) : Result :=
  nextAfter 1 (writeReg d 0xFF#8 s)

/-- `MUL Rd, Rr`, Multiply Unsigned (R132). -/
def execMul (d : Reg) (r : Reg) (s : State) : Result :=
  ifHas .mul (.mul d r) (fun s =>
    let p := productUU (readReg s d) (readReg s r)
    nextAfter 1 (writeProduct p p s)) s

/-- `MULS Rd, Rr`, Multiply Signed (R133). -/
def execMuls (d : Reg) (r : Reg) (s : State) : Result :=
  ifHas .mul (.muls d r) (fun s =>
    let p := productSS (readReg s d) (readReg s r)
    nextAfter 1 (writeProduct p p s)) s

/-- `MULSU Rd, Rr`, Multiply Signed with Unsigned (R134). -/
def execMulsu (d : Reg) (r : Reg) (s : State) : Result :=
  ifHas .mul (.mulsu d r) (fun s =>
    let p := productSU (readReg s d) (readReg s r)
    nextAfter 1 (writeProduct p p s)) s

/-- `FMUL Rd, Rr`, Fractional Multiply Unsigned (R135). -/
def execFmul (d : Reg) (r : Reg) (s : State) : Result :=
  ifHas .mul (.fmul d r) (fun s =>
    let p := productUU (readReg s d) (readReg s r)
    nextAfter 1 (writeProduct p (p <<< 1) s)) s

/-- `FMULS Rd, Rr`, Fractional Multiply Signed (R136). -/
def execFmuls (d : Reg) (r : Reg) (s : State) : Result :=
  ifHas .mul (.fmuls d r) (fun s =>
    let p := productSS (readReg s d) (readReg s r)
    nextAfter 1 (writeProduct p (p <<< 1) s)) s

/-- `FMULSU Rd, Rr`, Fractional Multiply Signed with Unsigned (R137). -/
def execFmulsu (d : Reg) (r : Reg) (s : State) : Result :=
  ifHas .mul (.fmulsu d r) (fun s =>
    let p := productSU (readReg s d) (readReg s r)
    nextAfter 1 (writeProduct p (p <<< 1) s)) s

end Sys2Proof.Machine
end

