-- ==== Sys2Proof/Machine/Bits.lean ====
section
/-! DEFINITION. Rows 109 to 136 of the opcode table: shifts, rotates, `SWAP`, single-bit operations and the named flag
instructions (44_bit_and_bit_test.md, R260 to R292). -/

namespace Sys2Proof.Machine

/-- `LSL Rd`, Logical Shift Left (R265). -/
def execLsl (d : Reg) (s : State) : Result :=
  let a := readReg s d
  let res := a <<< 1
  nextAfter 1 (mapSreg (shiftLeftFlags a res) (writeReg d res s))

/-- `LSR Rd`, Logical Shift Right (R266). -/
def execLsr (d : Reg) (s : State) : Result :=
  let a := readReg s d
  let res := a >>> 1
  nextAfter 1 (mapSreg (shiftRightFlags a res) (writeReg d res s))

/-- `ROL Rd`, Rotate Left Through Carry (R267). -/
def execRol (d : Reg) (s : State) : Result :=
  let a := readReg s d
  let res := (a <<< 1) ||| carryByte s
  nextAfter 1 (mapSreg (shiftLeftFlags a res) (writeReg d res s))

/-- `ROR Rd`, Rotate Right Through Carry (R268). -/
def execRor (d : Reg) (s : State) : Result :=
  let a := readReg s d
  let res := (a >>> 1) ||| (carryByte s <<< 7)
  nextAfter 1 (mapSreg (shiftRightFlags a res) (writeReg d res s))

/-- `ASR Rd`, Arithmetic Shift Right (R269). -/
def execAsr (d : Reg) (s : State) : Result :=
  let a := readReg s d
  let res := (a >>> 1) ||| (a &&& 0x80#8)
  nextAfter 1 (mapSreg (shiftRightFlags a res) (writeReg d res s))

/-- `SWAP Rd`, Swap Nibbles (R270). -/
def execSwap (d : Reg) (s : State) : Result :=
  let a := readReg s d
  nextAfter 1 (writeReg d ((a &&& 0x0F#8) <<< 4 ||| a >>> 4) s)

/-- `BSET s`, Flag Set (R271). -/
def execBset (b : BitVec 3) (s : State) : Result :=
  nextAfter 1 (if b.toNat = 7 then enableInterrupts s else mapSreg (fun sr => putBit sr b.toNat true) s)

/-- `BCLR s`, Flag Clear (R272). -/
def execBclr (b : BitVec 3) (s : State) : Result :=
  nextAfter 1 (mapSreg (fun sr => putBit sr b.toNat false) s)

/-- `SBI A, b`, Set Bit in I/O Register (R273). One read, one write (R264). -/
def execSbi (a : BitVec 5) (b : BitVec 3) (s : State) : Result :=
  match memRead (ioAddress a) s with
  | .ok (v, s1) => finish 1 (memWrite (ioAddress a) (putBit v b.toNat true) s1)
  | .error f => .fault f

/-- `CBI A, b`, Clear Bit in I/O Register (R274). One read, one write (R264). -/
def execCbi (a : BitVec 5) (b : BitVec 3) (s : State) : Result :=
  match memRead (ioAddress a) s with
  | .ok (v, s1) => finish 1 (memWrite (ioAddress a) (putBit v b.toNat false) s1)
  | .error f => .fault f

/-- `BST Rr, b`, Bit Store from Register to T (R275). -/
def execBst (r : Reg) (b : BitVec 3) (s : State) : Result :=
  nextAfter 1 (mapSreg (fun sr => putFlag sr .t (bitAt (readReg s r) b.toNat)) s)

/-- `BLD Rd, b`, Bit load from T to Register (R276). -/
def execBld (d : Reg) (b : BitVec 3) (s : State) : Result :=
  nextAfter 1 (writeReg d (putBit (readReg s d) b.toNat (readFlag s .t)) s)

/-- `SEC`, Set Carry (R277). -/
def execSec (s : State) : Result :=
  nextAfter 1 (mapSreg (fun sr => putFlag sr .c true) s)

/-- `CLC`, Clear Carry (R278). -/
def execClc (s : State) : Result :=
  nextAfter 1 (mapSreg (fun sr => putFlag sr .c false) s)

/-- `SEN`, Set Negative Flag (R279). -/
def execSen (s : State) : Result :=
  nextAfter 1 (mapSreg (fun sr => putFlag sr .n true) s)

/-- `CLN`, Clear Negative Flag (R280). -/
def execCln (s : State) : Result :=
  nextAfter 1 (mapSreg (fun sr => putFlag sr .n false) s)

/-- `SEZ`, Set Zero Flag (R281). -/
def execSez (s : State) : Result :=
  nextAfter 1 (mapSreg (fun sr => putFlag sr .z true) s)

/-- `CLZ`, Clear Zero Flag (R282). -/
def execClz (s : State) : Result :=
  nextAfter 1 (mapSreg (fun sr => putFlag sr .z false) s)

/-- `SEI`, Global Interrupt Enable (R283). -/
def execSei (s : State) : Result :=
  nextAfter 1 (enableInterrupts s)

/-- `CLI`, Global Interrupt Disable (R284). -/
def execCli (s : State) : Result :=
  nextAfter 1 (mapSreg (fun sr => putFlag sr .i false) s)

/-- `SES`, Set Signed Test Flag (R285). -/
def execSes (s : State) : Result :=
  nextAfter 1 (mapSreg (fun sr => putFlag sr .s true) s)

/-- `CLS`, Clear Signed Test Flag (R286). -/
def execCls (s : State) : Result :=
  nextAfter 1 (mapSreg (fun sr => putFlag sr .s false) s)

/-- `SEV`, Set Two's Complement Overflow (R287). -/
def execSev (s : State) : Result :=
  nextAfter 1 (mapSreg (fun sr => putFlag sr .v true) s)

/-- `CLV`, Clear Two's Complement Overflow (R288). -/
def execClv (s : State) : Result :=
  nextAfter 1 (mapSreg (fun sr => putFlag sr .v false) s)

/-- `SET`, Set T in SREG (R289). -/
def execSet (s : State) : Result :=
  nextAfter 1 (mapSreg (fun sr => putFlag sr .t true) s)

/-- `CLT`, Clear T in SREG (R290). -/
def execClt (s : State) : Result :=
  nextAfter 1 (mapSreg (fun sr => putFlag sr .t false) s)

/-- `SEH`, Set Half Carry Flag in SREG (R291). -/
def execSeh (s : State) : Result :=
  nextAfter 1 (mapSreg (fun sr => putFlag sr .h true) s)

/-- `CLH`, Clear Half Carry Flag in SREG (R292). -/
def execClh (s : State) : Result :=
  nextAfter 1 (mapSreg (fun sr => putFlag sr .h false) s)

end Sys2Proof.Machine
end

