-- ==== Sys2Proof/Machine/Branch.lean ====
section
/-! DEFINITION. Rows 29 to 66 of the opcode table: jumps, calls, returns, compares, skips and conditional branches
(41_branch.md, R140 to R187). -/

namespace Sys2Proof.Machine

/-- `EIND[5:0] : Z`, a 22-bit word address (R152, R156). -/
def extendedTarget (s : State) : Nat :=
  (readEind s &&& 0x3F#8).toNat * 65536 + (readPointer s .z).toNat

/-- The step of an instruction that assigns `PC` itself; a fault leaves no state. -/
def answer : Except Fault State → Result
  | .ok s => .next s
  | .error f => .fault f

/-- `RJMP k`, Relative Jump (R150). -/
def execRjmp (k : BitVec 12) (s : State) : Result :=
  .next (setPc (relTarget s k.toInt) s)

/-- `IJMP`, Indirect Jump to (Z) (R151). -/
def execIjmp (s : State) : Result :=
  ifHas .ijmpIcall (.ijmp) (fun s =>
    .next (setPc (readPointer s .z).toNat s)) s

/-- `EIJMP`, Extended Indirect Jump to (Z) (R152). -/
def execEijmp (s : State) : Result :=
  ifHas .eijmpEicall (.eijmp) (fun s =>
    .next (setPc (extendedTarget s) s)) s

/-- `JMP k`, Jump (R153). -/
def execJmp (k : BitVec 22) (s : State) : Result :=
  ifHas .jmpCall (.jmp k) (fun s =>
    .next (setPc k.toNat s)) s

/-- `RCALL k`, Relative Call Subroutine (R154). -/
def execRcall (k : BitVec 12) (s : State) : Result :=
  callTo 1 (relTarget s k.toInt) s

/-- `ICALL`, Indirect Call to (Z) (R155). -/
def execIcall (s : State) : Result :=
  ifHas .ijmpIcall (.icall) (fun s =>
    callTo 1 (readPointer s .z).toNat s) s

/-- `EICALL`, Extended Indirect Call to (Z) (R156). -/
def execEicall (s : State) : Result :=
  ifHas .eijmpEicall (.eicall) (fun s =>
    callTo 1 (extendedTarget s) s) s

/-- `CALL k`, Call Subroutine (R157). -/
def execCall (k : BitVec 22) (s : State) : Result :=
  ifHas .jmpCall (.call k) (fun s =>
    callTo 2 k.toNat s) s

/-- `RET`, Subroutine Return (R158). -/
def execRet (s : State) : Result :=
  answer (returnTo s)

/-- `RETI`, Interrupt Return (R159). -/
def execReti (s : State) : Result :=
  answer (leaveInterrupt s)

/-- `CPSE Rd, Rr`, Compare, Skip if Equal (R160). -/
def execCpse (d : Reg) (r : Reg) (s : State) : Result :=
  skipIf (readReg s d == readReg s r) s

/-- `CP Rd, Rr`, Compare (R161). No register is written. -/
def execCp (d : Reg) (r : Reg) (s : State) : Result :=
  let a := readReg s d
  let b := readReg s r
  let res := a - b
  nextAfter 1 (mapSreg (fun sr => plainZ res (subFlags a b res sr)) s)

/-- `CPC Rd, Rr`, Compare with Carry (R162). No register is written. -/
def execCpc (d : Reg) (r : Reg) (s : State) : Result :=
  let a := readReg s d
  let b := readReg s r
  let res := a - b - carryByte s
  nextAfter 1 (mapSreg (fun sr => carriedZ res (subFlags a b res sr)) s)

/-- `CPI Rd, K`, Compare with Immediate (R163). No register is written. -/
def execCpi (d : Reg) (k : BitVec 8) (s : State) : Result :=
  let a := readReg s d
  let res := a - k
  nextAfter 1 (mapSreg (fun sr => plainZ res (subFlags a k res sr)) s)

/-- `SBRC Rr, b`, Skip if Bit in Register Cleared (R164). -/
def execSbrc (r : Reg) (b : BitVec 3) (s : State) : Result :=
  skipIf (!bitAt (readReg s r) b.toNat) s

/-- `SBRS Rr, b`, Skip if Bit in Register Set (R165). -/
def execSbrs (r : Reg) (b : BitVec 3) (s : State) : Result :=
  skipIf (bitAt (readReg s r) b.toNat) s

/-- `SBIC A, b`, Skip if Bit in I/O Register Cleared (R166). One I/O read in either case. -/
def execSbic (a : BitVec 5) (b : BitVec 3) (s : State) : Result :=
  match memRead (ioAddress a) s with
  | .ok (v, s1) => skipIf (!bitAt v b.toNat) s1
  | .error f => .fault f

/-- `SBIS A, b`, Skip if Bit in I/O Register Set (R167). One I/O read in either case. -/
def execSbis (a : BitVec 5) (b : BitVec 3) (s : State) : Result :=
  match memRead (ioAddress a) s with
  | .ok (v, s1) => skipIf (bitAt v b.toNat) s1
  | .error f => .fault f

/-- `BRBS s, k`, Branch if Status Flag Set (R168). -/
def execBrbs (b : BitVec 3) (k : BitVec 7) (s : State) : Result :=
  branchIf (bitAt s.sreg b.toNat) k s

/-- `BRBC s, k`, Branch if Status Flag Cleared (R169). -/
def execBrbc (b : BitVec 3) (k : BitVec 7) (s : State) : Result :=
  branchIf (!bitAt s.sreg b.toNat) k s

/-- `BREQ k`, Branch if Equal (R170). -/
def execBreq (k : BitVec 7) (s : State) : Result :=
  branchIf (readFlag s .z) k s

/-- `BRNE k`, Branch if Not Equal (R171). -/
def execBrne (k : BitVec 7) (s : State) : Result :=
  branchIf (!readFlag s .z) k s

/-- `BRCS k`, Branch if Carry Set (R172). -/
def execBrcs (k : BitVec 7) (s : State) : Result :=
  branchIf (readFlag s .c) k s

/-- `BRCC k`, Branch if Carry Cleared (R173). -/
def execBrcc (k : BitVec 7) (s : State) : Result :=
  branchIf (!readFlag s .c) k s

/-- `BRSH k`, Branch if Same or Higher (R174). -/
def execBrsh (k : BitVec 7) (s : State) : Result :=
  branchIf (!readFlag s .c) k s

/-- `BRLO k`, Branch if Lower (R175). -/
def execBrlo (k : BitVec 7) (s : State) : Result :=
  branchIf (readFlag s .c) k s

/-- `BRMI k`, Branch if Minus (R176). -/
def execBrmi (k : BitVec 7) (s : State) : Result :=
  branchIf (readFlag s .n) k s

/-- `BRPL k`, Branch if Plus (R177). -/
def execBrpl (k : BitVec 7) (s : State) : Result :=
  branchIf (!readFlag s .n) k s

/-- `BRGE k`, Branch if Greater or Equal, Signed (R178). Tests the stored S (R145). -/
def execBrge (k : BitVec 7) (s : State) : Result :=
  branchIf (!readFlag s .s) k s

/-- `BRLT k`, Branch if Less Than, Signed (R179). Tests the stored S (R145). -/
def execBrlt (k : BitVec 7) (s : State) : Result :=
  branchIf (readFlag s .s) k s

/-- `BRHS k`, Branch if Half Carry Flag Set (R180). -/
def execBrhs (k : BitVec 7) (s : State) : Result :=
  branchIf (readFlag s .h) k s

/-- `BRHC k`, Branch if Half Carry Flag Cleared (R181). -/
def execBrhc (k : BitVec 7) (s : State) : Result :=
  branchIf (!readFlag s .h) k s

/-- `BRTS k`, Branch if T Flag Set (R182). -/
def execBrts (k : BitVec 7) (s : State) : Result :=
  branchIf (readFlag s .t) k s

/-- `BRTC k`, Branch if T Flag Cleared (R183). -/
def execBrtc (k : BitVec 7) (s : State) : Result :=
  branchIf (!readFlag s .t) k s

/-- `BRVS k`, Branch if Overflow Flag is Set (R184). -/
def execBrvs (k : BitVec 7) (s : State) : Result :=
  branchIf (readFlag s .v) k s

/-- `BRVC k`, Branch if Overflow Flag is Cleared (R185). -/
def execBrvc (k : BitVec 7) (s : State) : Result :=
  branchIf (!readFlag s .v) k s

/-- `BRIE k`, Branch if Interrupt Enabled (R186). -/
def execBrie (k : BitVec 7) (s : State) : Result :=
  branchIf (readFlag s .i) k s

/-- `BRID k`, Branch if Interrupt Disabled (R187). -/
def execBrid (k : BitVec 7) (s : State) : Result :=
  branchIf (!readFlag s .i) k s

end Sys2Proof.Machine
end

