-- ==== Sys2Proof/Machine/Control.lean ====
section
/-! DEFINITION. Rows 67 to 70 of the opcode table: `BREAK`, `NOP`, `SLEEP`, `WDR` (42_mcu_control.md, R190 to R193). -/

namespace Sys2Proof.Machine

/-- `BREAK`, Break (R190). `BREAK_MODE` chooses (R319). -/
def execBrk (s : State) : Result :=
  ifHas .breakGroup (.brk) (fun s =>
    match s.cfg.breakMode with
    | .stop => nextAfter 1 { s with mode := .stopped }
    | .nop => nextAfter 1 s) s

/-- `NOP`, No Operation (R191). -/
def execNop (s : State) : Result :=
  nextAfter 1 s

/-- `SLEEP`, Sleep (R192). `SLEEP_MODEL` chooses (R320). -/
def execSleep (s : State) : Result :=
  match s.cfg.sleepModel with
  | .sleep => nextAfter 1 { s with mode := .sleeping }
  | .nop => nextAfter 1 s

/-- `WDR`, Watchdog Reset (R193). `WDT_MODEL` chooses. -/
def execWdr (s : State) : Result :=
  match s.cfg.wdtModel with
  | .device => nextAfter 1 (tellDevices .wdr s)
  | .absent => nextAfter 1 s

end Sys2Proof.Machine
end

