-- ==== Sys2Proof/Machine/Transfer.lean ====
section
/-! DEFINITION. Rows 71 to 108 of the opcode table: moves, loads, stores, program-memory loads, `SPM`, I/O and stack
(43_data_transfer.md, R200 to R247). -/

namespace Sys2Proof.Machine

/-- `R[d] <- Pop()` (R247). -/
def popInto (d : Reg) (s : State) : Except Fault State :=
  match pop s with
  | .ok (v, s1) => .ok (writeReg d v s1)
  | .error f => .error f

/-- What an `SPM` hands the self-programming controller as an address: `RAMPZ:Z`, or `Z` on a device
without `RAMPZ` (R243; log 9). -/
def selfProgramAddress (s : State) : Nat :=
  if s.cfg.hasRampz then extendedZ s else (readPointer s .z).toNat

/-- `MOV Rd, Rr`, Copy Register (R210). -/
def execMov (d : Reg) (r : Reg) (s : State) : Result :=
  nextAfter 1 (writeReg d (readReg s r) s)

/-- `MOVW Rd, Rr`, Copy Register Pair (R211). -/
def execMovw (d : Reg) (r : Reg) (s : State) : Result :=
  ifHas .movw (.movw d r) (fun s =>
    nextAfter 1 (writePair d (readPair s r) s)) s

/-- `LDI Rd, K`, Load Immediate (R212). -/
def execLdi (d : Reg) (k : BitVec 8) (s : State) : Result :=
  nextAfter 1 (writeReg d k s)

/-- `LDS Rd, k`, Load Direct from data space (R213). -/
def execLds (d : Reg) (k : BitVec 16) (s : State) : Result :=
  ifHas .ldsSts (.lds d k) (fun s =>
    finish 2 (loadFrom k d s)) s

/-- `LD Rd, X`, Load Indirect (R214). -/
def execLdX (d : Reg) (s : State) : Result :=
  ifHas .ldStVariants (.ldX d) (fun s =>
    finish 1 (loadFrom (readPointer s .x) d s)) s

/-- `LD Rd, X+`, Load Indirect and Post-Increment (R215). -/
def execLdXInc (d : Reg) (s : State) : Result :=
  ifHas .ldStVariants (.ldXInc d) (fun s =>
    ifDefined .x d (.ldXInc d) (fun s => finish 1 (loadPostInc .x d s)) s) s

/-- `LD Rd, -X`, Load Indirect and Pre-Decrement (R216). -/
def execLdXDec (d : Reg) (s : State) : Result :=
  ifHas .ldStVariants (.ldXDec d) (fun s =>
    ifDefined .x d (.ldXDec d) (fun s => finish 1 (loadPreDec .x d s)) s) s

/-- `LD Rd, Y`, Load Indirect (R217). Its word is that of `LDD Rd, Y+0` (R82; log 24). -/
def execLdY (d : Reg) (s : State) : Result :=
  ifHasDisplaced 0#6 (.ldY d) (fun s =>
    finish 1 (loadFrom (readPointer s .y) d s)) s

/-- `LD Rd, Y+`, Load Indirect and Post-Increment (R218). -/
def execLdYInc (d : Reg) (s : State) : Result :=
  ifHas .ldStVariants (.ldYInc d) (fun s =>
    ifDefined .y d (.ldYInc d) (fun s => finish 1 (loadPostInc .y d s)) s) s

/-- `LD Rd, -Y`, Load Indirect and Pre-Decrement (R219). -/
def execLdYDec (d : Reg) (s : State) : Result :=
  ifHas .ldStVariants (.ldYDec d) (fun s =>
    ifDefined .y d (.ldYDec d) (fun s => finish 1 (loadPreDec .y d s)) s) s

/-- `LDD Rd, Y+q`, Load Indirect with Displacement (R220). -/
def execLddY (d : Reg) (q : BitVec 6) (s : State) : Result :=
  ifHasDisplaced q (.lddY d q) (fun s =>
    finish 1 (loadFrom (displaced s .y q) d s)) s

/-- `LD Rd, Z`, Load Indirect (R221). Its word is that of `LDD Rd, Z+0` (R82; log 24). -/
def execLdZ (d : Reg) (s : State) : Result :=
  ifHasDisplaced 0#6 (.ldZ d) (fun s =>
    finish 1 (loadFrom (readPointer s .z) d s)) s

/-- `LD Rd, Z+`, Load Indirect and Post-Increment (R222). -/
def execLdZInc (d : Reg) (s : State) : Result :=
  ifHas .ldStVariants (.ldZInc d) (fun s =>
    ifDefined .z d (.ldZInc d) (fun s => finish 1 (loadPostInc .z d s)) s) s

/-- `LD Rd, -Z`, Load Indirect and Pre-Decrement (R223). -/
def execLdZDec (d : Reg) (s : State) : Result :=
  ifHas .ldStVariants (.ldZDec d) (fun s =>
    ifDefined .z d (.ldZDec d) (fun s => finish 1 (loadPreDec .z d s)) s) s

/-- `LDD Rd, Z+q`, Load Indirect with Displacement (R224). -/
def execLddZ (d : Reg) (q : BitVec 6) (s : State) : Result :=
  ifHasDisplaced q (.lddZ d q) (fun s =>
    finish 1 (loadFrom (displaced s .z q) d s)) s

/-- `STS k, Rr`, Store Direct to data space (R225). -/
def execSts (k : BitVec 16) (r : Reg) (s : State) : Result :=
  ifHas .ldsSts (.sts k r) (fun s =>
    finish 2 (memWrite k (readReg s r) s)) s

/-- `ST X, Rr`, Store Indirect (R226). -/
def execStX (r : Reg) (s : State) : Result :=
  ifHas .ldStVariants (.stX r) (fun s =>
    finish 1 (memWrite (readPointer s .x) (readReg s r) s)) s

/-- `ST X+, Rr`, Store Indirect and Post-Increment (R227). -/
def execStXInc (r : Reg) (s : State) : Result :=
  ifHas .ldStVariants (.stXInc r) (fun s =>
    ifDefined .x r (.stXInc r) (fun s => finish 1 (storePostInc .x r s)) s) s

/-- `ST -X, Rr`, Store Indirect and Pre-Decrement (R228). -/
def execStXDec (r : Reg) (s : State) : Result :=
  ifHas .ldStVariants (.stXDec r) (fun s =>
    ifDefined .x r (.stXDec r) (fun s => finish 1 (storePreDec .x r s)) s) s

/-- `ST Y, Rr`, Store Indirect (R229). Its word is that of `STD Y+0, Rr` (R82; log 24). -/
def execStY (r : Reg) (s : State) : Result :=
  ifHasDisplaced 0#6 (.stY r) (fun s =>
    finish 1 (memWrite (readPointer s .y) (readReg s r) s)) s

/-- `ST Y+, Rr`, Store Indirect and Post-Increment (R230). -/
def execStYInc (r : Reg) (s : State) : Result :=
  ifHas .ldStVariants (.stYInc r) (fun s =>
    ifDefined .y r (.stYInc r) (fun s => finish 1 (storePostInc .y r s)) s) s

/-- `ST -Y, Rr`, Store Indirect and Pre-Decrement (R231). -/
def execStYDec (r : Reg) (s : State) : Result :=
  ifHas .ldStVariants (.stYDec r) (fun s =>
    ifDefined .y r (.stYDec r) (fun s => finish 1 (storePreDec .y r s)) s) s

/-- `STD Y+q, Rr`, Store Indirect with Displacement (R232). -/
def execStdY (q : BitVec 6) (r : Reg) (s : State) : Result :=
  ifHasDisplaced q (.stdY q r) (fun s =>
    finish 1 (memWrite (displaced s .y q) (readReg s r) s)) s

/-- `ST Z, Rr`, Store Indirect (R233). Its word is that of `STD Z+0, Rr` (R82; log 24). -/
def execStZ (r : Reg) (s : State) : Result :=
  ifHasDisplaced 0#6 (.stZ r) (fun s =>
    finish 1 (memWrite (readPointer s .z) (readReg s r) s)) s

/-- `ST Z+, Rr`, Store Indirect and Post-Increment (R234). -/
def execStZInc (r : Reg) (s : State) : Result :=
  ifHas .ldStVariants (.stZInc r) (fun s =>
    ifDefined .z r (.stZInc r) (fun s => finish 1 (storePostInc .z r s)) s) s

/-- `ST -Z, Rr`, Store Indirect and Pre-Decrement (R235). -/
def execStZDec (r : Reg) (s : State) : Result :=
  ifHas .ldStVariants (.stZDec r) (fun s =>
    ifDefined .z r (.stZDec r) (fun s => finish 1 (storePreDec .z r s)) s) s

/-- `STD Z+q, Rr`, Store Indirect with Displacement (R236). -/
def execStdZ (q : BitVec 6) (r : Reg) (s : State) : Result :=
  ifHasDisplaced q (.stdZ q r) (fun s =>
    finish 1 (memWrite (displaced s .z q) (readReg s r) s)) s

/-- `LPM`, Load Program Memory, implied operands (R237). Destination `R0`. -/
def execLpm (s : State) : Result :=
  ifHas .lpmVariants (.lpm) (fun s =>
    finish 1 (loadProgram (readPointer s .z).toNat 0 s)) s

/-- `LPM Rd, Z`, Load Program Memory (R238). -/
def execLpmZ (d : Reg) (s : State) : Result :=
  ifHas .lpmVariants (.lpmZ d) (fun s =>
    finish 1 (loadProgram (readPointer s .z).toNat d s)) s

/-- `LPM Rd, Z+`, Load Program Memory and Post-Increment (R239). -/
def execLpmZInc (d : Reg) (s : State) : Result :=
  ifHas .lpmVariants (.lpmZInc d) (fun s =>
    ifDefined .z d (.lpmZInc d) (fun s => finish 1 (loadProgramInc d s)) s) s

/-- `ELPM`, Extended Load Program Memory, implied operands (R240). Destination `R0`. -/
def execElpm (s : State) : Result :=
  ifHas .elpm (.elpm) (fun s =>
    finish 1 (loadProgram (extendedZ s) 0 s)) s

/-- `ELPM Rd, Z`, Extended Load Program Memory (R241). -/
def execElpmZ (d : Reg) (s : State) : Result :=
  ifHas .elpm (.elpmZ d) (fun s =>
    finish 1 (loadProgram (extendedZ s) d s)) s

/-- `ELPM Rd, Z+`, Extended Load Program Memory and Post-Increment (R242). -/
def execElpmZInc (d : Reg) (s : State) : Result :=
  ifHas .elpm (.elpmZInc d) (fun s =>
    ifDefined .z d (.elpmZInc d) (fun s => finish 1 (loadExtendedInc d s)) s) s

/-- `SPM`, Store Program Memory (R243). `SPM_MODEL` chooses; `device`: what the controller changes is a
free value, seen by the next fetch (log 9). -/
def execSpm (s : State) : Result :=
  ifHas .spm (.spm) (fun s =>
    match s.cfg.spmModel with
    | .refuse => .fault (.unmodelled s.pc)
    | .device =>
      let s1 := tellDevices (.spm (selfProgramAddress s) (readPair s 0)) s
      nextAfter 1 { s1 with flash := applyEdits s.cfg (Config.spmEdits s1.ioTrace) s.flash }) s

/-- `IN Rd, A`, In From I/O Location (R244). -/
def execInp (d : Reg) (a : BitVec 6) (s : State) : Result :=
  finish 1 (loadFrom (ioAddress a) d s)

/-- `OUT A, Rr`, Out To I/O Location (R245). -/
def execOut (a : BitVec 6) (r : Reg) (s : State) : Result :=
  finish 1 (memWrite (ioAddress a) (readReg s r) s)

/-- `PUSH Rr`, Push Register on Stack (R246). -/
def execPush (r : Reg) (s : State) : Result :=
  ifHas .pushPop (.push r) (fun s =>
    finish 1 (push (readReg s r) s)) s

/-- `POP Rd`, Pop Register from Stack (R247). -/
def execPop (d : Reg) (s : State) : Result :=
  ifHas .pushPop (.pop d) (fun s =>
    finish 1 (popInto d s)) s

end Sys2Proof.Machine
end

