-- ==== Sys2Proof/Machine/Fetch.lean ====
section
/-! DEFINITION. Fetching and decoding the instruction at `PC` (R14 of 00_scope.md, R61 of 20_memory.md, R90
of 30_encoding.md), and placing an instruction's words where the fetch reads them. -/

namespace Sys2Proof.Machine

/-- R90 (1), (3), (4), with `Fault.ReservedOpcode` where no row matches (R87). -/
def decodeAt (w0 w1 : Word) (s : State) : Except Fault Instr :=
  match decodeOp w0 w1 with
  | .ok i => .ok i
  | .error _ => .error (.reservedOpcode w0 s.pc)

/-- The instruction at `PC`: its first word, for a two-word instruction its second, then the decoding. A
`BadFetch` of the instruction's own words comes before every other fault (R301; log 10). -/
def fetch (s : State) : Except Fault Instr :=
  match pmWord s.pc.toNat s with
  | .error f => .error f
  | .ok w0 =>
    if isTwoWord w0 then
      match pmWord (s.pc.toNat + 1) s with
      | .error f => .error f
      | .ok w1 => decodeAt w0 w1 s
    else decodeAt w0 0#16 s

/-- Put two bytes, low byte first, at a word address of program memory, taken modulo 2^`PC_BITS`; beyond
`FLASH_WORDS` nothing is put. -/
def placeWord (w : Nat) (lo hi : Byte) (s : State) : State :=
  let a := w % 2 ^ s.cfg.pcBits
  if a < s.cfg.flashWords then
    { s with flash := flashPut (flashPut s.flash (2 * a) lo) (2 * a + 1) hi }
  else s

/-- Put four bytes, the longest instruction, at `PC` and the word after it. -/
def placeAtPc (bytes : List Byte) (s : State) : State :=
  match bytes with
  | [b0, b1, b2, b3] => placeWord (s.pc.toNat + 1) b2 b3 (placeWord s.pc.toNat b0 b1 s)
  | _ => s

/-- What a step does at an instruction boundary where no reset and no interrupt is taken: in running
mode, one instruction, with `irq_inhibit` cleared unless the instruction sets it (R305, R311; log 18); in
sleeping and stopped mode, nothing (R319, R320; log 17). -/
def executeWith (run : Instr → State → Result) (s : State) : Result :=
  match s.mode with
  | .running =>
    match fetch s with
    | .ok i => run i { s with irqInhibit := false }
    | .error f => .fault f
  | .sleeping => .next s
  | .stopped => .next s

/-- One step, `run` being the meaning of an instruction (R14): a reset offered at the boundary first, then an
interrupt, then an instruction (R305, R306, R330). -/
def stepWith (run : Instr → State → Result) (s : State) : Result :=
  match takeBoundary s with
  | (true, s1) => .next (resetEvent s1)
  | (false, s1) =>
    match interruptToTake s1 with
    | some n => enterInterrupt n s1
    | none => executeWith run s1

end Sys2Proof.Machine
end

