-- ==== Sys2Proof/Safety.lean ====
section
/-! DEFINITION. What the claims are about: the invariant of the machine's states, runs, and what counts as a
safe one (R301, R321 of 60_exceptions.md). -/

namespace Sys2Proof.Machine

/-- A list of vector numbers is strictly rising and within `[lo, hi)`. -/
def risingIn (lo hi : Nat) : List Nat → Bool
  | [] => true
  | n :: rest => decide (lo ≤ n ∧ n < hi) && risingIn (n + 1) hi rest

/-- What every state of a run satisfies: the parameters meet R7, `PC` has `PC_BITS` bits (R28), `SP`, `RAMPZ`
and `EIND` hold no bit outside their masks (R36, R38, R39) and the last two are zero where they do not exist,
both memories are in canonical form, and the requests are a strictly rising list of vector numbers (R303). -/
structure State.Inv (s : State) : Prop where
  cfg : s.cfg.wf
  pc : s.pc.toNat < 2 ^ s.cfg.pcBits
  sp : s.sp &&& s.cfg.spMask = s.sp
  rampz : s.rampz &&& s.cfg.rampzMask = s.rampz
  eind : s.eind &&& s.cfg.eindMask = s.eind
  noRampz : s.cfg.hasRampz = false → s.rampz = 0#8
  noEind : s.cfg.hasEind = false → s.eind = 0#8
  sram : Memory.wf s.cfg s.sram
  flash : Memory.flashWf s.cfg s.flash
  requests : risingIn 1 s.cfg.nVectors s.requests = true

/-! ## What an instruction leaves unchanged -/

/-- `PC + n`, modulo 2^`PC_BITS` (R28). -/
def pcPlus (s : State) (n : Nat) : PcAddr := BitVec.ofNat 22 ((s.pc.toNat + n) % 2 ^ s.cfg.pcBits)

/-- From `s` to `t` nothing changes but `PC`, the registers `ds` and the flags `fs`: every other register, every
other flag, every byte of memory and every other field is as it was. -/
structure OnlyRegs (s t : State) (ds : List Reg) (fs : List Flag) : Prop where
  regs : ∀ e, e ∉ ds → readReg t e = readReg s e
  flags : ∀ f, f ∉ fs → readFlag t f = readFlag s f
  memory : ∀ a, sramByte t.sram a = sramByte s.sram a
  rest : t = { s with pc := t.pc, regs := t.regs, sreg := t.sreg }

/-- The instruction completes, `n` words on, changing only the registers `ds` and the flags `fs`, in a state of
which `P` holds. -/
def Completes (i : Instr) (s : State) (n : Nat) (ds : List Reg) (fs : List Flag) (P : State → Prop) : Prop :=
  ∃ t, exec i s = .next t ∧ t.pc = pcPlus s n ∧ OnlyRegs s t ds fs ∧ P t

/-- From `s` to `t` nothing changes but `PC` and the SRAM byte at address `a`, which holds `v`. -/
structure OnlyByte (s t : State) (a : Nat) (v : Byte) : Prop where
  stored : sramByte t.sram a = v
  memory : ∀ b, b ≠ a → sramByte t.sram b = sramByte s.sram b
  rest : t = { s with pc := t.pc, sram := t.sram }

/-! ## Flags by their arithmetic meaning (R101, R102) -/

/-- A carry or borrow as a number. -/
def bitNat (b : Bool) : Nat := if b then 1 else 0

/-- The flags of `a + b + cin`: C the carry out of bit 7, H out of bit 3, V signed overflow, N the sign of the
8-bit result, S the sign of the exact sum, Z a zero result. -/
def SumFlags (a b : Byte) (cin : Bool) (t : State) : Prop :=
  readFlag t .c = decide (256 ≤ a.toNat + b.toNat + bitNat cin) ∧
  readFlag t .h = decide (16 ≤ a.toNat % 16 + b.toNat % 16 + bitNat cin) ∧
  readFlag t .v = decide (a.toInt + b.toInt + bitNat cin < -128 ∨ 127 < a.toInt + b.toInt + bitNat cin) ∧
  readFlag t .n = decide (128 ≤ (a.toNat + b.toNat + bitNat cin) % 256) ∧
  readFlag t .s = decide (a.toInt + b.toInt + bitNat cin < 0) ∧
  readFlag t .z = decide ((a.toNat + b.toNat + bitNat cin) % 256 = 0)

/-- `(a - b - cin) mod 256`. -/
def difference (a b : Byte) (cin : Bool) : Nat := (a.toNat + 512 - b.toNat - bitNat cin) % 256

/-- The flags of `a - b - cin`, but for Z: C the borrow, H the borrow from bit 3, V signed overflow, N the sign of
the 8-bit result, S the sign of the exact difference. -/
def DifferenceFlags (a b : Byte) (cin : Bool) (t : State) : Prop :=
  readFlag t .c = decide (a.toNat < b.toNat + bitNat cin) ∧
  readFlag t .h = decide (a.toNat % 16 < b.toNat % 16 + bitNat cin) ∧
  readFlag t .v = decide (a.toInt - b.toInt - bitNat cin < -128 ∨ 127 < a.toInt - b.toInt - bitNat cin) ∧
  readFlag t .n = decide (128 ≤ difference a b cin) ∧
  readFlag t .s = decide (a.toInt - b.toInt - bitNat cin < 0)

/-- The flags an arithmetic instruction that lists all six of Z, C, N, V, S, H writes. -/
def sixFlags : List Flag := [.z, .c, .n, .v, .s, .h]

/-! ## Names of rows: the aliases with a fixed flag, the optional groups -/

/-- Rows 49 to 66: the branch, the flag it tests, and the value it branches on (R144). -/
def namedBranches (k : BitVec 7) : List (Instr × Flag × Bool) :=
  [(.breq k, .z, true), (.brne k, .z, false), (.brcs k, .c, true), (.brcc k, .c, false),
   (.brsh k, .c, false), (.brlo k, .c, true), (.brmi k, .n, true), (.brpl k, .n, false),
   (.brge k, .s, false), (.brlt k, .s, true), (.brhs k, .h, true), (.brhc k, .h, false),
   (.brts k, .t, true), (.brtc k, .t, false), (.brvs k, .v, true), (.brvc k, .v, false),
   (.brie k, .i, true), (.brid k, .i, false)]

/-- Rows 121 to 136: the instruction, the flag it writes, and the value it writes (R262). -/
def namedFlags : List (Instr × Flag × Bool) :=
  [(.sec, .c, true), (.clc, .c, false), (.sen, .n, true), (.cln, .n, false), (.sez, .z, true),
   (.clz, .z, false), (.sei, .i, true), (.cli, .i, false), (.ses, .s, true), (.cls, .s, false),
   (.sev, .v, true), (.clv, .v, false), (.set, .t, true), (.clt, .t, false), (.seh, .h, true),
   (.clh, .h, false)]

/-- The groups one of which the words of `LD` and `ST` by plain `Y` and `Z`, which are those of `LDD` and `STD` with q = 0 (R82),
take: `LDD_STD`, that of the row R90 decodes them to, and, where the spec's rules are read that way, `LD_ST_VARIANTS` (R8, R217;
log 24). -/
def plainGroups (c : Config) : List Group :=
  if c.plainWithoutLdd then [.lddStd, .ldStVariants] else [.lddStd]

/-- The optional groups of the instruction's word, that of the row R90 decodes it to first (R8); the device holds the word if
it has one of them, or if there is none. -/
def groupsOf (c : Config) : Instr → List Group
  | .add _ _ => []
  | .adc _ _ => []
  | .sub _ _ => []
  | .subi _ _ => []
  | .sbc _ _ => []
  | .sbci _ _ => []
  | .and _ _ => []
  | .andi _ _ => []
  | .or _ _ => []
  | .ori _ _ => []
  | .eor _ _ => []
  | .com _ => []
  | .neg _ => []
  | .sbr _ _ => []
  | .cbr _ _ => []
  | .inc _ => []
  | .dec _ => []
  | .tst _ => []
  | .clr _ => []
  | .ser _ => []
  | .rjmp _ => []
  | .rcall _ => []
  | .ret => []
  | .reti => []
  | .cpse _ _ => []
  | .cp _ _ => []
  | .cpc _ _ => []
  | .cpi _ _ => []
  | .sbrc _ _ => []
  | .sbrs _ _ => []
  | .sbic _ _ => []
  | .sbis _ _ => []
  | .brbs _ _ => []
  | .brbc _ _ => []
  | .breq _ => []
  | .brne _ => []
  | .brcs _ => []
  | .brcc _ => []
  | .brsh _ => []
  | .brlo _ => []
  | .brmi _ => []
  | .brpl _ => []
  | .brge _ => []
  | .brlt _ => []
  | .brhs _ => []
  | .brhc _ => []
  | .brts _ => []
  | .brtc _ => []
  | .brvs _ => []
  | .brvc _ => []
  | .brie _ => []
  | .brid _ => []
  | .nop => []
  | .sleep => []
  | .wdr => []
  | .mov _ _ => []
  | .ldi _ _ => []
  | .inp _ _ => []
  | .out _ _ => []
  | .lsl _ => []
  | .lsr _ => []
  | .rol _ => []
  | .ror _ => []
  | .asr _ => []
  | .swap _ => []
  | .bset _ => []
  | .bclr _ => []
  | .sbi _ _ => []
  | .cbi _ _ => []
  | .bst _ _ => []
  | .bld _ _ => []
  | .sec => []
  | .clc => []
  | .sen => []
  | .cln => []
  | .sez => []
  | .clz => []
  | .sei => []
  | .cli => []
  | .ses => []
  | .cls => []
  | .sev => []
  | .clv => []
  | .set => []
  | .clt => []
  | .seh => []
  | .clh => []
  | .adiw _ _ => [.adiwSbiw]
  | .sbiw _ _ => [.adiwSbiw]
  | .mul _ _ => [.mul]
  | .muls _ _ => [.mul]
  | .mulsu _ _ => [.mul]
  | .fmul _ _ => [.mul]
  | .fmuls _ _ => [.mul]
  | .fmulsu _ _ => [.mul]
  | .ijmp => [.ijmpIcall]
  | .icall => [.ijmpIcall]
  | .eijmp => [.eijmpEicall]
  | .eicall => [.eijmpEicall]
  | .jmp _ => [.jmpCall]
  | .call _ => [.jmpCall]
  | .brk => [.breakGroup]
  | .movw _ _ => [.movw]
  | .lds _ _ => [.ldsSts]
  | .sts _ _ => [.ldsSts]
  | .ldX _ => [.ldStVariants]
  | .ldXInc _ => [.ldStVariants]
  | .ldXDec _ => [.ldStVariants]
  | .ldYInc _ => [.ldStVariants]
  | .ldYDec _ => [.ldStVariants]
  | .ldZInc _ => [.ldStVariants]
  | .ldZDec _ => [.ldStVariants]
  | .stX _ => [.ldStVariants]
  | .stXInc _ => [.ldStVariants]
  | .stXDec _ => [.ldStVariants]
  | .stYInc _ => [.ldStVariants]
  | .stYDec _ => [.ldStVariants]
  | .stZInc _ => [.ldStVariants]
  | .stZDec _ => [.ldStVariants]
  | .ldY _ => plainGroups c
  | .lddY _ q => if q = 0#6 then plainGroups c else [.lddStd]
  | .ldZ _ => plainGroups c
  | .lddZ _ q => if q = 0#6 then plainGroups c else [.lddStd]
  | .stY _ => plainGroups c
  | .stdY q _ => if q = 0#6 then plainGroups c else [.lddStd]
  | .stZ _ => plainGroups c
  | .stdZ q _ => if q = 0#6 then plainGroups c else [.lddStd]
  | .lpm => [.lpmVariants]
  | .lpmZ _ => [.lpmVariants]
  | .lpmZInc _ => [.lpmVariants]
  | .elpm => [.elpm]
  | .elpmZ _ => [.elpm]
  | .elpmZInc _ => [.elpm]
  | .spm => [.spm]
  | .push _ => [.pushPop]
  | .pop _ => [.pushPop]

/-! ## The stack -/

/-- The `k`-th address below `SP`. -/
def below (s : State) (k : Nat) : Word := readSp s - BitVec.ofNat 16 k

/-- `n` bytes can be pushed into SRAM: the addresses from `SP` down are SRAM and `SP_MASK` does not cut the
decrements. -/
def StackRoom (s : State) (n : Nat) : Prop :=
  ∀ k, k < n → regionOf s.cfg (below s k) = .sram ∧ below s (k + 1) &&& s.cfg.spMask = below s (k + 1)

/-- The `k`-th address above `SP`. -/
def above (s : State) (k : Nat) : Word := readSp s + BitVec.ofNat 16 k

/-- `n` bytes can be popped from SRAM. -/
def StackHolds (s : State) (n : Nat) : Prop :=
  ∀ k, 1 ≤ k → k ≤ n → regionOf s.cfg (above s k) = .sram ∧ above s k &&& s.cfg.spMask = above s k

/-- The byte of SRAM at a data address. -/
def sramAt (s : State) (a : Word) : Byte := sramByte s.sram a.toNat

/-- `t` is `s` after a return address was pushed onto SRAM and `PC` set: the low byte at the highest address (R65,
R141), `SP` lowered by `PC_BYTES`, every other byte of memory and every other field as it was. -/
structure Called (s t : State) (ret target : Nat) : Prop where
  pc : t.pc = BitVec.ofNat 22 (target % 2 ^ s.cfg.pcBits)
  sp : readSp t = below s s.cfg.pcBytes
  low : sramAt t (below s 0) = BitVec.ofNat 8 ret
  mid : sramAt t (below s 1) = BitVec.ofNat 8 (ret / 2 ^ 8)
  high : s.cfg.pcBytes = 3 → sramAt t (below s 2) = BitVec.ofNat 8 (ret / 2 ^ 16)
  memory : ∀ a, (∀ k, k < s.cfg.pcBytes → a ≠ (below s k).toNat) → sramByte t.sram a = sramByte s.sram a
  rest : t = { s with pc := t.pc, sp := t.sp, sram := t.sram }

/-- `t` is the entry of vector `n` from `s`, whose pushes left `u` (R307): I is clear, the mode running, `PC` at the
vector, the devices told, at most request `n` cleared (R303), and everything else as the pushes left it. -/
structure EntersVector (n : Nat) (s u t : State) : Prop where
  pc : t.pc = BitVec.ofNat 22 ((s.cfg.vectorBase + n * s.cfg.vectorStride) % 2 ^ s.cfg.pcBits)
  disabled : readFlag t .i = false
  flags : ∀ f, f ≠ .i → readFlag t f = readFlag u f
  mode : t.mode = .running
  told : t.ioTrace = .ack n :: u.ioTrace
  kept : ∀ m, m ≠ n → (m ∈ t.requests ↔ m ∈ u.requests)
  cleared : t.requests = u.requests ∨ t.requests = u.requests.erase n
  rest : t = { u with
    pc := t.pc, sreg := t.sreg, mode := t.mode, ioTrace := t.ioTrace, requests := t.requests }

/-- The return address on an SRAM stack: the most significant byte at the lowest address (R65). -/
def storedReturn (s : State) : Nat :=
  if s.cfg.pcBytes = 3 then
    (sramAt s (above s 1)).toNat * 2 ^ 16 + (sramAt s (above s 2)).toNat * 2 ^ 8 + (sramAt s (above s 3)).toNat
  else (sramAt s (above s 1)).toNat * 2 ^ 8 + (sramAt s (above s 2)).toNat

/-- The call pushes the address `n` words on and goes to `t`, wherever `SP` points; where a push faults, it
faults (R141). -/
def CallsTo (i : Instr) (s : State) (n t : Nat) : Prop :=
  (∀ u, pushPc (s.pc.toNat + n) s = .ok u → exec i s = .next (setPc t u)) ∧
  (∀ f, pushPc (s.pc.toNat + n) s = .error f → exec i s = .fault f)

/-! ## Control flow -/

/-- `PC` of `t` is `(PC + k + 1) mod 2^PC_BITS` of `s` (R140). -/
def AtOffset (s t : State) (k : Int) : Prop :=
  (t.pc.toNat : Int) = ((s.pc.toNat : Int) + k + 1) % ((2 ^ s.cfg.pcBits : Nat) : Int)

/-- A branch that completes, changing `PC` alone: by `k` where `taken`, else to the next instruction (R144). -/
def Branches (i : Instr) (s : State) (taken : Bool) (k : BitVec 7) : Prop :=
  ∃ t, exec i s = .next t ∧ t = { s with pc := t.pc } ∧ AtOffset s t (if taken then k.toInt else 0)

/-- A skip whose condition is `cond` and whose I/O read, if it makes one, leaves `u` (R143): past the next
instruction, of one or two words (R76), where the condition is true; `Fault.BadFetch` where it is true and the next
word is beyond program memory. -/
def Skips (i : Instr) (s u : State) (cond : Bool) : Prop :=
  (cond = false → exec i s = .next { u with pc := pcPlus s 1 }) ∧
  (cond = true → (s.pc.toNat + 1) % 2 ^ s.cfg.pcBits < s.cfg.flashWords →
    exec i s = .next { u with
      pc := pcPlus s
        (if isTwoWord (flashWord s.flash ((s.pc.toNat + 1) % 2 ^ s.cfg.pcBits)) then 3 else 2) }) ∧
  (cond = true → s.cfg.flashWords ≤ (s.pc.toNat + 1) % 2 ^ s.cfg.pcBits →
    exec i s = .fault (.badFetch ((s.pc.toNat + 1) % 2 ^ s.cfg.pcBits)))

/-! ## Loads and stores -/

/-- Rows 76, 79, 83. -/
def ldInc : Pointer → Reg → Instr
  | .x, d => .ldXInc d
  | .y, d => .ldYInc d
  | .z, d => .ldZInc d

/-- Rows 77, 80, 84. -/
def ldDec : Pointer → Reg → Instr
  | .x, d => .ldXDec d
  | .y, d => .ldYDec d
  | .z, d => .ldZDec d

/-- Rows 88, 91, 95. -/
def stInc : Pointer → Reg → Instr
  | .x, r => .stXInc r
  | .y, r => .stYInc r
  | .z, r => .stZInc r

/-- Rows 89, 92, 96. -/
def stDec : Pointer → Reg → Instr
  | .x, r => .stXDec r
  | .y, r => .stYDec r
  | .z, r => .stZDec r

/-- The loads without a pointer update, with the address each reads and its length in words (R213 to R224). -/
def plainLoads (s : State) (d : Reg) (k : Word) (q : BitVec 6) : List (Instr × Word × Nat) :=
  [(.lds d k, k, 2), (.ldX d, readPointer s .x, 1), (.ldY d, readPointer s .y, 1),
   (.ldZ d, readPointer s .z, 1),
   (.lddY d q, BitVec.ofNat 16 ((readPointer s .y).toNat + q.toNat), 1),
   (.lddZ d q, BitVec.ofNat 16 ((readPointer s .z).toNat + q.toNat), 1)]

/-- The stores without a pointer update, with the address each writes and its length in words (R225 to R236). -/
def plainStores (s : State) (r : Reg) (k : Word) (q : BitVec 6) : List (Instr × Word × Nat) :=
  [(.sts k r, k, 2), (.stX r, readPointer s .x, 1), (.stY r, readPointer s .y, 1),
   (.stZ r, readPointer s .z, 1),
   (.stdY q r, BitVec.ofNat 16 ((readPointer s .y).toNat + q.toNat), 1),
   (.stdZ q r, BitVec.ofNat 16 ((readPointer s .z).toNat + q.toNat), 1)]

/-- The device holds the instruction: it has one of the optional groups of its word, or there is none (R8). -/
def Present (i : Instr) (s : State) : Prop :=
  groupsOf s.cfg i = [] ∨ ∃ g ∈ groupsOf s.cfg i, s.cfg.has g = true

/-- From `s` to `t` nothing changes but `PC`, the registers `ds` and what a device read of `u` changed. -/
structure OnlyLoaded (s u t : State) (ds : List Reg) : Prop where
  regs : ∀ e, e ∉ ds → readReg t e = readReg s e
  memory : ∀ a, sramByte t.sram a = sramByte s.sram a
  rest : t = { s with pc := t.pc, regs := t.regs, ioTrace := u.ioTrace, ioInputs := u.ioInputs }

/-- The data-space address an instruction stores one byte to, if it does: for a store its operand's, for `OUT`,
`SBI`, `CBI` that of the I/O register, for `PUSH` that in `SP`. The calls, which store a return address, are left to
`Called`. -/
def storeAddress (i : Instr) (s : State) : Option Word :=
  match i with
  | .sts k _ => some k
  | .stX _ | .stXInc _ => some (readPointer s .x)
  | .stXDec _ => some (readPointer s .x - 1#16)
  | .stY _ | .stYInc _ => some (readPointer s .y)
  | .stYDec _ => some (readPointer s .y - 1#16)
  | .stdY q _ => some (displaced s .y q)
  | .stZ _ | .stZInc _ => some (readPointer s .z)
  | .stZDec _ => some (readPointer s .z - 1#16)
  | .stdZ q _ => some (displaced s .z q)
  | .out a _ => some (ioAddress a)
  | .sbi a _ | .cbi a _ => some (ioAddress a)
  | .push _ => some (readSp s)
  | .add _ _ | .adc _ _ | .adiw _ _ | .sub _ _ | .subi _ _ | .sbc _ _ | .sbci _ _ | .sbiw _ _
  | .and _ _ | .andi _ _ | .or _ _ | .ori _ _ | .eor _ _ | .com _ | .neg _ | .sbr _ _ | .cbr _ _
  | .inc _ | .dec _ | .tst _ | .clr _ | .ser _ | .mul _ _ | .muls _ _ | .mulsu _ _ | .fmul _ _
  | .fmuls _ _ | .fmulsu _ _ | .rjmp _ | .ijmp | .eijmp | .jmp _ | .rcall _ | .icall | .eicall
  | .call _ | .ret | .reti | .cpse _ _ | .cp _ _ | .cpc _ _ | .cpi _ _ | .sbrc _ _ | .sbrs _ _
  | .sbic _ _ | .sbis _ _ | .brbs _ _ | .brbc _ _ | .breq _ | .brne _ | .brcs _ | .brcc _ | .brsh _
  | .brlo _ | .brmi _ | .brpl _ | .brge _ | .brlt _ | .brhs _ | .brhc _ | .brts _ | .brtc _
  | .brvs _ | .brvc _ | .brie _ | .brid _ | .brk | .nop | .sleep | .wdr | .mov _ _ | .movw _ _
  | .ldi _ _ | .lds _ _ | .ldX _ | .ldXInc _ | .ldXDec _ | .ldY _ | .ldYInc _ | .ldYDec _
  | .lddY _ _ | .ldZ _ | .ldZInc _ | .ldZDec _ | .lddZ _ _ | .lpm | .lpmZ _ | .lpmZInc _ | .elpm
  | .elpmZ _ | .elpmZInc _ | .spm | .inp _ _ | .pop _ | .lsl _ | .lsr _ | .rol _ | .ror _ | .asr _
  | .swap _ | .bset _ | .bclr _ | .bst _ _ | .bld _ _ | .sec | .clc | .sen | .cln | .sez | .clz
  | .sei | .cli | .ses | .cls | .sev | .clv | .set | .clt | .seh | .clh => none

/-- The instructions that push a return address. -/
def isCall : Instr → Bool
  | .rcall _ | .icall | .eicall | .call _ => true
  | .add _ _ | .adc _ _ | .adiw _ _ | .sub _ _ | .subi _ _ | .sbc _ _ | .sbci _ _ | .sbiw _ _
  | .and _ _ | .andi _ _ | .or _ _ | .ori _ _ | .eor _ _ | .com _ | .neg _ | .sbr _ _ | .cbr _ _
  | .inc _ | .dec _ | .tst _ | .clr _ | .ser _ | .mul _ _ | .muls _ _ | .mulsu _ _ | .fmul _ _
  | .fmuls _ _ | .fmulsu _ _ | .rjmp _ | .ijmp | .eijmp | .jmp _ | .ret | .reti | .cpse _ _
  | .cp _ _ | .cpc _ _ | .cpi _ _ | .sbrc _ _ | .sbrs _ _ | .sbic _ _ | .sbis _ _ | .brbs _ _
  | .brbc _ _ | .breq _ | .brne _ | .brcs _ | .brcc _ | .brsh _ | .brlo _ | .brmi _ | .brpl _
  | .brge _ | .brlt _ | .brhs _ | .brhc _ | .brts _ | .brtc _ | .brvs _ | .brvc _ | .brie _
  | .brid _ | .brk | .nop | .sleep | .wdr | .mov _ _ | .movw _ _ | .ldi _ _ | .lds _ _ | .ldX _
  | .ldXInc _ | .ldXDec _ | .ldY _ | .ldYInc _ | .ldYDec _ | .lddY _ _ | .ldZ _ | .ldZInc _
  | .ldZDec _ | .lddZ _ _ | .sts _ _ | .stX _ | .stXInc _ | .stXDec _ | .stY _ | .stYInc _
  | .stYDec _ | .stdY _ _ | .stZ _ | .stZInc _ | .stZDec _ | .stdZ _ _ | .lpm | .lpmZ _
  | .lpmZInc _ | .elpm | .elpmZ _ | .elpmZInc _ | .spm | .inp _ _ | .out _ _ | .push _ | .pop _
  | .lsl _ | .lsr _ | .rol _ | .ror _ | .asr _ | .swap _ | .bset _ | .bclr _ | .sbi _ _ | .cbi _ _
  | .bst _ _ | .bld _ _ | .sec | .clc | .sen | .cln | .sez | .clz | .sei | .cli | .ses | .cls
  | .sev | .clv | .set | .clt | .seh | .clh => false

/-- Rows 71 to 108, the data transfer instructions. -/
def isTransfer : Instr → Bool
  | .mov _ _ | .movw _ _ | .ldi _ _ | .lds _ _ | .ldX _ | .ldXInc _ | .ldXDec _ | .ldY _
  | .ldYInc _ | .ldYDec _ | .lddY _ _ | .ldZ _ | .ldZInc _ | .ldZDec _ | .lddZ _ _ | .sts _ _
  | .stX _ | .stXInc _ | .stXDec _ | .stY _ | .stYInc _ | .stYDec _ | .stdY _ _ | .stZ _
  | .stZInc _ | .stZDec _ | .stdZ _ _ | .lpm | .lpmZ _ | .lpmZInc _ | .elpm | .elpmZ _
  | .elpmZInc _ | .spm | .inp _ _ | .out _ _ | .push _ | .pop _ => true
  | .add _ _ | .adc _ _ | .adiw _ _ | .sub _ _ | .subi _ _ | .sbc _ _ | .sbci _ _ | .sbiw _ _
  | .and _ _ | .andi _ _ | .or _ _ | .ori _ _ | .eor _ _ | .com _ | .neg _ | .sbr _ _ | .cbr _ _
  | .inc _ | .dec _ | .tst _ | .clr _ | .ser _ | .mul _ _ | .muls _ _ | .mulsu _ _ | .fmul _ _
  | .fmuls _ _ | .fmulsu _ _ | .rjmp _ | .ijmp | .eijmp | .jmp _ | .rcall _ | .icall | .eicall
  | .call _ | .ret | .reti | .cpse _ _ | .cp _ _ | .cpc _ _ | .cpi _ _ | .sbrc _ _ | .sbrs _ _
  | .sbic _ _ | .sbis _ _ | .brbs _ _ | .brbc _ _ | .breq _ | .brne _ | .brcs _ | .brcc _ | .brsh _
  | .brlo _ | .brmi _ | .brpl _ | .brge _ | .brlt _ | .brhs _ | .brhc _ | .brts _ | .brtc _
  | .brvs _ | .brvc _ | .brie _ | .brid _ | .brk | .nop | .sleep | .wdr | .lsl _ | .lsr _ | .rol _
  | .ror _ | .asr _ | .swap _ | .bset _ | .bclr _ | .sbi _ _ | .cbi _ _ | .bst _ _ | .bld _ _
  | .sec | .clc | .sen | .cln | .sez | .clz | .sei | .cli | .ses | .cls | .sev | .clv | .set | .clt
  | .seh | .clh => false

/-! ## Reserved words (R85) -/

/-- Bits 3 to 0 of a word. -/
def low4 (w : Word) : Nat := field w 0 4

/-- The first words R85 lists, pattern by pattern. -/
def reservedWord (w : Word) : Bool :=
  (field w 8 8 == 0x00 && field w 0 8 != 0) ||
  (field w 9 7 == 0x48 && (low4 w == 3 || low4 w == 8 || low4 w == 11)) ||
  (field w 9 7 == 0x49 && (low4 w == 3 || low4 w / 4 == 1 || low4 w == 8 || low4 w == 11)) ||
  (field w 9 7 == 0x4A && (low4 w == 4 || low4 w == 11)) ||
  [0x9528#16, 0x9538#16, 0x9548#16, 0x9558#16, 0x9568#16, 0x9578#16, 0x95B8#16, 0x95F8#16].contains w ||
  (field w 9 7 == 0x4A && low4 w == 9 && !([0x9409#16, 0x9419#16, 0x9509#16, 0x9519#16].contains w)) ||
  (field w 11 5 == 0x1F && field w 3 1 == 1)

/-! ## Runs -/

/-- `t` is reached from `s` by steps none of which faults. -/
inductive Steps : State → State → Prop where
  | refl (s : State) : Steps s s
  | tail {s t u : State} : Steps s t → step t = .next u → Steps s u

/-- A run that never faults (R301): from every state it reaches, a step answers a next state. -/
def NeverFaults (s : State) : Prop := ∀ t, Steps s t → ∃ u, step t = .next u

/-- The ends of a run that are not faults and that the state shows: `stopped` (R319), or `sleeping` with
interrupts disabled, from which only a reset leaves (R320, R321). -/
def State.ended (s : State) : Bool :=
  match s.mode with
  | .running => false
  | .stopped => true
  | .sleeping => !readFlag s .i

end Sys2Proof.Machine
end

