-- ==== Sys2Proof/Certificates/Slice0/Obligations.lean ====
section
/-! DEFINITION. The statements for the provers. OBLIGATIONS.json lists them with the rules they cite. -/

open Sys2Proof Sys2Proof.Machine

/-! ## Arithmetic and logic -/

/-- R101: the equations of `AddFlags` and their arithmetic meaning. -/
def Obligations.AddFlagsMeanCarryAndOverflow : Prop :=
  ∀ (a b sr : Byte) (cin : Bool),
    let r := a + b + BitVec.ofNat 8 (bitNat cin)
    let f := flagOf (addFlags a b r sr)
    f .h = ((bitAt a 3 && bitAt b 3) || (bitAt b 3 && !bitAt r 3) || (!bitAt r 3 && bitAt a 3)) ∧
    f .h = decide (16 ≤ a.toNat % 16 + b.toNat % 16 + bitNat cin) ∧
    f .v = ((bitAt a 7 && bitAt b 7 && !bitAt r 7) || (!bitAt a 7 && !bitAt b 7 && bitAt r 7)) ∧
    f .v = decide (a.toInt + b.toInt + bitNat cin < -128 ∨ 127 < a.toInt + b.toInt + bitNat cin) ∧
    f .n = bitAt r 7 ∧
    f .z = decide (r = 0#8) ∧
    f .c = ((bitAt a 7 && bitAt b 7) || (bitAt b 7 && !bitAt r 7) || (!bitAt r 7 && bitAt a 7)) ∧
    f .c = decide (256 ≤ a.toNat + b.toNat + bitNat cin) ∧
    f .s = (f .n ^^ f .v) ∧ f .t = flagOf sr .t ∧ f .i = flagOf sr .i

/-- R102: the equations of `SubFlags` and their arithmetic meaning; Z is left to the caller. -/
def Obligations.SubFlagsMeanBorrowAndOverflow : Prop :=
  ∀ (a b sr : Byte) (cin : Bool),
    let r := a - b - BitVec.ofNat 8 (bitNat cin)
    let f := flagOf (subFlags a b r sr)
    f .h = ((!bitAt a 3 && bitAt b 3) || (bitAt b 3 && bitAt r 3) || (bitAt r 3 && !bitAt a 3)) ∧
    f .h = decide (a.toNat % 16 < b.toNat % 16 + bitNat cin) ∧
    f .v = ((bitAt a 7 && !bitAt b 7 && !bitAt r 7) || (!bitAt a 7 && bitAt b 7 && bitAt r 7)) ∧
    f .v = decide (a.toInt - b.toInt - bitNat cin < -128 ∨ 127 < a.toInt - b.toInt - bitNat cin) ∧
    f .n = bitAt r 7 ∧
    f .c = ((!bitAt a 7 && bitAt b 7) || (bitAt b 7 && bitAt r 7) || (bitAt r 7 && !bitAt a 7)) ∧
    f .c = decide (a.toNat < b.toNat + bitNat cin) ∧
    f .s = (f .n ^^ f .v) ∧
    f .z = flagOf sr .z ∧ f .t = flagOf sr .t ∧ f .i = flagOf sr .i

/-- `ADD`, `ADC` (R110, R111, R100): the sum, the six flags, nothing else; `Rd` and `Rr` may be one register. -/
def Obligations.AddResults : Prop :=
  ∀ (s : State) (d r : Reg),
    Completes (.add d r) s 1 [d] sixFlags (fun t =>
      (readReg t d).toNat = ((readReg s d).toNat + (readReg s r).toNat) % 256 ∧
      SumFlags (readReg s d) (readReg s r) false t) ∧
    Completes (.adc d r) s 1 [d] sixFlags (fun t =>
      (readReg t d).toNat =
        ((readReg s d).toNat + (readReg s r).toNat + bitNat (readFlag s .c)) % 256 ∧
      SumFlags (readReg s d) (readReg s r) (readFlag s .c) t)

/-- `SUB`, `SUBI`, `SBC`, `SBCI` (R113 to R116): the difference, the flags, Z plain (R103) or carried (R104), nothing
else. -/
def Obligations.SubtractResults : Prop :=
  ∀ (s : State) (d r : Reg) (k : Byte),
    Completes (.sub d r) s 1 [d] sixFlags (fun t =>
      (readReg t d).toNat = difference (readReg s d) (readReg s r) false ∧
      DifferenceFlags (readReg s d) (readReg s r) false t ∧
      readFlag t .z = decide (readReg s d = readReg s r)) ∧
    Completes (.subi d k) s 1 [d] sixFlags (fun t =>
      (readReg t d).toNat = difference (readReg s d) k false ∧
      DifferenceFlags (readReg s d) k false t ∧
      readFlag t .z = decide (readReg s d = k)) ∧
    Completes (.sbc d r) s 1 [d] sixFlags (fun t =>
      (readReg t d).toNat = difference (readReg s d) (readReg s r) (readFlag s .c) ∧
      DifferenceFlags (readReg s d) (readReg s r) (readFlag s .c) t ∧
      readFlag t .z =
        (decide (difference (readReg s d) (readReg s r) (readFlag s .c) = 0) && readFlag s .z)) ∧
    Completes (.sbci d k) s 1 [d] sixFlags (fun t =>
      (readReg t d).toNat = difference (readReg s d) k (readFlag s .c) ∧
      DifferenceFlags (readReg s d) k (readFlag s .c) t ∧
      readFlag t .z = (decide (difference (readReg s d) k (readFlag s .c) = 0) && readFlag s .z))

/-- `CP`, `CPC`, `CPI` (R161 to R163): the flags of the subtraction; no register is written. -/
def Obligations.CompareResults : Prop :=
  ∀ (s : State) (d r : Reg) (k : Byte),
    Completes (.cp d r) s 1 [] sixFlags (fun t =>
      DifferenceFlags (readReg s d) (readReg s r) false t ∧
      readFlag t .z = decide (readReg s d = readReg s r)) ∧
    Completes (.cpi d k) s 1 [] sixFlags (fun t =>
      DifferenceFlags (readReg s d) k false t ∧ readFlag t .z = decide (readReg s d = k)) ∧
    Completes (.cpc d r) s 1 [] sixFlags (fun t =>
      DifferenceFlags (readReg s d) (readReg s r) (readFlag s .c) t ∧
      readFlag t .z =
        (decide (difference (readReg s d) (readReg s r) (readFlag s .c) = 0) && readFlag s .z))

/-- R104: `SUB` of the low bytes and then `SBC` of the high bytes subtracts 16-bit values: the borrow, the sign of the
exact difference, and Z exactly when all 16 bits are zero. -/
def Obligations.SixteenBitSubtract : Prop :=
  ∀ (s : State) (dl dh rl rh : Reg), s.cfg.wf → dl ≠ dh → dl ≠ rh →
    let a := readReg s dh ++ readReg s dl
    let b := readReg s rh ++ readReg s rl
    ∃ t u, exec (.sub dl rl) s = .next t ∧ exec (.sbc dh rh) t = .next u ∧
      readReg u dh ++ readReg u dl = a - b ∧
      readFlag u .z = decide (a = b) ∧
      readFlag u .c = decide (a.toNat < b.toNat) ∧
      readFlag u .s = decide (a.toInt < b.toInt) ∧
      u.pc = pcPlus s 2

/-- `AND`, `ANDI`, `OR`, `ORI`, `EOR`, `SBR`, `CBR`, `TST`, `CLR` (R118 to R122, R125, R126, R129, R130) bit by bit,
with the flags of R105: V 0, N and S the sign, Z a zero result; C and H unchanged. -/
def Obligations.LogicResults : Prop :=
  ∀ (s : State) (d r : Reg) (k : Byte),
    let a := readReg s d
    let logic (i : Instr) (f : Nat → Bool) : Prop :=
      Completes i s 1 [d] [.z, .n, .v, .s] (fun t =>
        (∀ j, j < 8 → bitAt (readReg t d) j = f j) ∧
        readFlag t .v = false ∧ readFlag t .n = f 7 ∧ readFlag t .s = f 7 ∧
        (readFlag t .z = true ↔ ∀ j, j < 8 → f j = false))
    logic (.and d r) (fun j => bitAt a j && bitAt (readReg s r) j) ∧
    logic (.andi d k) (fun j => bitAt a j && bitAt k j) ∧
    logic (.or d r) (fun j => bitAt a j || bitAt (readReg s r) j) ∧
    logic (.ori d k) (fun j => bitAt a j || bitAt k j) ∧
    logic (.eor d r) (fun j => bitAt a j ^^ bitAt (readReg s r) j) ∧
    logic (.sbr d k) (fun j => bitAt a j || bitAt k j) ∧
    logic (.cbr d k) (fun j => bitAt a j && !bitAt k j) ∧
    logic (.tst d) (fun j => bitAt a j) ∧
    logic (.clr d) (fun _ => false)

/-- `COM`, `NEG`, `INC`, `DEC` (R123, R124, R127, R128): the value and the flags by arithmetic; `COM` leaves H, `INC` and
`DEC` leave C and H. -/
def Obligations.ComplementIncrementResults : Prop :=
  ∀ (s : State) (d : Reg),
    let a := readReg s d
    Completes (.com d) s 1 [d] [.z, .c, .n, .v, .s] (fun t =>
      (readReg t d).toNat = 255 - a.toNat ∧ readFlag t .c = true ∧ readFlag t .v = false ∧
      readFlag t .n = decide (a.toNat < 128) ∧ readFlag t .s = decide (a.toNat < 128) ∧
      readFlag t .z = decide (a.toNat = 255)) ∧
    Completes (.neg d) s 1 [d] sixFlags (fun t =>
      (readReg t d).toNat = (256 - a.toNat) % 256 ∧ DifferenceFlags 0#8 a false t ∧
      readFlag t .z = decide (a.toNat = 0)) ∧
    Completes (.inc d) s 1 [d] [.z, .n, .v, .s] (fun t =>
      (readReg t d).toNat = (a.toNat + 1) % 256 ∧ readFlag t .v = decide (a.toNat = 127) ∧
      readFlag t .n = decide (128 ≤ (a.toNat + 1) % 256) ∧ readFlag t .s = decide (a.toInt + 1 < 0) ∧
      readFlag t .z = decide (a.toNat = 255)) ∧
    Completes (.dec d) s 1 [d] [.z, .n, .v, .s] (fun t =>
      (readReg t d).toNat = (a.toNat + 255) % 256 ∧ readFlag t .v = decide (a.toNat = 128) ∧
      readFlag t .n = decide (128 ≤ (a.toNat + 255) % 256) ∧ readFlag t .s = decide (a.toInt - 1 < 0) ∧
      readFlag t .z = decide (a.toNat = 1))

/-- `ADIW`, `SBIW` (R112, R117): 16-bit arithmetic on the pair; H is not written. -/
def Obligations.WordImmediateResults : Prop :=
  ∀ (s : State) (d : Reg) (k : BitVec 6), s.cfg.has .adiwSbiw = true →
    let a := readPair s d
    Completes (.adiw d k) s 1 [d, d + 1] [.z, .c, .n, .v, .s] (fun t =>
      (readPair t d).toNat = (a.toNat + k.toNat) % 65536 ∧
      readFlag t .c = decide (65536 ≤ a.toNat + k.toNat) ∧
      readFlag t .v = decide (32767 < a.toInt + k.toNat) ∧
      readFlag t .n = decide (32768 ≤ (a.toNat + k.toNat) % 65536) ∧
      readFlag t .s = decide (a.toInt + k.toNat < 0) ∧
      readFlag t .z = decide ((a.toNat + k.toNat) % 65536 = 0)) ∧
    Completes (.sbiw d k) s 1 [d, d + 1] [.z, .c, .n, .v, .s] (fun t =>
      (readPair t d).toNat = (a.toNat + 65536 - k.toNat) % 65536 ∧
      readFlag t .c = decide (a.toNat < k.toNat) ∧
      readFlag t .v = decide (a.toInt - k.toNat < -32768) ∧
      readFlag t .n = decide (32768 ≤ (a.toNat + 65536 - k.toNat) % 65536) ∧
      readFlag t .s = decide (a.toInt - k.toNat < 0) ∧
      readFlag t .z = decide (a.toNat = k.toNat))

/-- `MUL`, `MULS`, `MULSU` (R132 to R134): `R1:R0` holds the exact product; C is its bit 15, Z says it is zero. The
operands may be `R0` and `R1`. -/
def Obligations.MultiplyResults : Prop :=
  ∀ (s : State) (d r : Reg), s.cfg.has .mul = true →
    let a := readReg s d
    let b := readReg s r
    Completes (.mul d r) s 1 [0, 1] [.z, .c] (fun t =>
      (readPair t 0).toNat = a.toNat * b.toNat ∧
      readFlag t .c = decide (32768 ≤ a.toNat * b.toNat) ∧
      readFlag t .z = decide (a.toNat * b.toNat = 0)) ∧
    Completes (.muls d r) s 1 [0, 1] [.z, .c] (fun t =>
      (readPair t 0).toInt = a.toInt * b.toInt ∧
      readFlag t .c = decide (a.toInt * b.toInt < 0) ∧
      readFlag t .z = decide (a.toInt * b.toInt = 0)) ∧
    Completes (.mulsu d r) s 1 [0, 1] [.z, .c] (fun t =>
      (readPair t 0).toInt = a.toInt * (b.toNat : Int) ∧
      readFlag t .c = decide (a.toInt * (b.toNat : Int) < 0) ∧
      readFlag t .z = decide (a.toInt * (b.toNat : Int) = 0))

/-- `FMUL`, `FMULS`, `FMULSU` (R135 to R137): the product shifted left by one, modulo 2^16; C the product's bit 15; the
result is zero only where an operand is. -/
def Obligations.FractionalMultiplyResults : Prop :=
  ∀ (s : State) (d r : Reg), s.cfg.has .mul = true →
    let a := readReg s d
    let b := readReg s r
    let zero := decide (a = 0#8 ∨ b = 0#8)
    Completes (.fmul d r) s 1 [0, 1] [.z, .c] (fun t =>
      (readPair t 0).toNat = 2 * (a.toNat * b.toNat) % 65536 ∧
      readFlag t .c = decide (32768 ≤ a.toNat * b.toNat) ∧ readFlag t .z = zero) ∧
    Completes (.fmuls d r) s 1 [0, 1] [.z, .c] (fun t =>
      ((readPair t 0).toNat : Int) = 2 * (a.toInt * b.toInt) % 65536 ∧
      readFlag t .c = decide (a.toInt * b.toInt < 0) ∧ readFlag t .z = zero) ∧
    Completes (.fmulsu d r) s 1 [0, 1] [.z, .c] (fun t =>
      ((readPair t 0).toNat : Int) = 2 * (a.toInt * (b.toNat : Int)) % 65536 ∧
      readFlag t .c = decide (a.toInt * (b.toNat : Int) < 0) ∧ readFlag t .z = zero)

/-! ## Moves, shifts, bits, flags -/

/-- `MOV`, `LDI`, `SER` and `MOVW` (R210 to R212, R131): the register or pair, and no flag. -/
def Obligations.MoveResults : Prop :=
  ∀ (s : State) (d r : Reg) (k : Byte),
    Completes (.mov d r) s 1 [d] [] (fun t => readReg t d = readReg s r) ∧
    Completes (.ldi d k) s 1 [d] [] (fun t => readReg t d = k) ∧
    Completes (.ser d) s 1 [d] [] (fun t => (readReg t d).toNat = 255) ∧
    (s.cfg.has .movw = true →
      Completes (.movw d r) s 1 [d, d + 1] [] (fun t =>
        readReg t d = readReg s r ∧ readReg t (d + 1) = readReg s (r + 1)))

/-- `LSL`, `LSR`, `ROL`, `ROR`, `ASR` (R265 to R269) by arithmetic: C the bit shifted out, V = N ^ C, S = C. -/
def Obligations.ShiftResults : Prop :=
  ∀ (s : State) (d : Reg),
    let a := readReg s d
    let c := bitNat (readFlag s .c)
    let flags (t : State) (out : Bool) : Prop :=
      readFlag t .c = out ∧ readFlag t .n = decide (128 ≤ (readReg t d).toNat) ∧
      readFlag t .z = decide ((readReg t d).toNat = 0) ∧
      readFlag t .v = (readFlag t .n ^^ out) ∧ readFlag t .s = out
    Completes (.lsl d) s 1 [d] sixFlags (fun t =>
      (readReg t d).toNat = 2 * a.toNat % 256 ∧ flags t (decide (128 ≤ a.toNat)) ∧
      readFlag t .h = decide (8 ≤ a.toNat % 16)) ∧
    Completes (.rol d) s 1 [d] sixFlags (fun t =>
      (readReg t d).toNat = (2 * a.toNat + c) % 256 ∧ flags t (decide (128 ≤ a.toNat)) ∧
      readFlag t .h = decide (8 ≤ a.toNat % 16)) ∧
    Completes (.lsr d) s 1 [d] [.z, .c, .n, .v, .s] (fun t =>
      (readReg t d).toNat = a.toNat / 2 ∧ flags t (decide (a.toNat % 2 = 1))) ∧
    Completes (.ror d) s 1 [d] [.z, .c, .n, .v, .s] (fun t =>
      (readReg t d).toNat = a.toNat / 2 + 128 * c ∧ flags t (decide (a.toNat % 2 = 1))) ∧
    Completes (.asr d) s 1 [d] [.z, .c, .n, .v, .s] (fun t =>
      (readReg t d).toInt = a.toInt / 2 ∧ flags t (decide (a.toNat % 2 = 1)))

/-- `SWAP`, `BST`, `BLD` (R270, R275, R276): nibbles exchanged; one bit to T; T to one bit, the others kept. -/
def Obligations.BitResults : Prop :=
  ∀ (s : State) (d r : Reg) (b : BitVec 3),
    Completes (.swap d) s 1 [d] [] (fun t =>
      (readReg t d).toNat = (readReg s d).toNat % 16 * 16 + (readReg s d).toNat / 16) ∧
    Completes (.bst r b) s 1 [] [.t] (fun t => readFlag t .t = bitAt (readReg s r) b.toNat) ∧
    Completes (.bld d b) s 1 [d] [] (fun t =>
      ∀ j, j < 8 → bitAt (readReg t d) j =
        if j = b.toNat then readFlag s .t else bitAt (readReg s d) j)

/-- `BSET`, `BCLR` and rows 121 to 136 (R262, R263, R271, R272, R277 to R292): each writes exactly one flag. The word that
sets I also sets `irq_inhibit` if I was 0. -/
def Obligations.FlagInstructionResults : Prop :=
  ∀ (s : State),
    (∀ f, f ≠ .i → Completes (.bset (BitVec.ofNat 3 f.bit)) s 1 [] [f] (fun t => readFlag t f = true)) ∧
    (∀ f, Completes (.bclr (BitVec.ofNat 3 f.bit)) s 1 [] [f] (fun t => readFlag t f = false)) ∧
    (∀ x ∈ namedFlags, x.1 ≠ .sei → Completes x.1 s 1 [] [x.2.1] (fun t => readFlag t x.2.1 = x.2.2)) ∧
    (∀ i ∈ [Instr.sei, Instr.bset 7#3], ∃ t, exec i s = .next t ∧
      readFlag t .i = true ∧ (∀ f, f ≠ .i → readFlag t f = readFlag s f) ∧
      t.irqInhibit = (s.irqInhibit || !readFlag s .i) ∧ t.pc = pcPlus s 1 ∧
      t = { s with pc := t.pc, sreg := t.sreg, irqInhibit := t.irqInhibit })

/-! ## Control flow -/

/-- `RJMP`, `IJMP`, `EIJMP`, `JMP` (R150 to R153, R140, R147): only `PC` changes, and it is the target modulo
2^`PC_BITS`. -/
def Obligations.JumpResults : Prop :=
  ∀ (s : State), s.cfg.wf →
    let z := (readReg s 31).toNat * 256 + (readReg s 30).toNat
    (∀ k, ∃ t, exec (.rjmp k) s = .next t ∧ t = { s with pc := t.pc } ∧ AtOffset s t k.toInt) ∧
    (s.cfg.has .ijmpIcall = true → ∃ t, exec .ijmp s = .next t ∧ t = { s with pc := t.pc } ∧
      t.pc.toNat = z % 2 ^ s.cfg.pcBits) ∧
    (s.cfg.has .eijmpEicall = true → ∃ t, exec .eijmp s = .next t ∧ t = { s with pc := t.pc } ∧
      t.pc.toNat = ((s.eind &&& s.cfg.eindMask).toNat % 64 * 65536 + z) % 2 ^ s.cfg.pcBits) ∧
    (s.cfg.has .jmpCall = true → ∀ k, ∃ t, exec (.jmp k) s = .next t ∧ t = { s with pc := t.pc } ∧
      t.pc.toNat = k.toNat % 2 ^ s.cfg.pcBits)

/-- `RCALL`, `ICALL`, `EICALL`, `CALL` (R154 to R157, R141): onto an SRAM stack the address after the call is pushed, low
byte first at the highest address, `SP` falls by `PC_BYTES` and nothing else changes; wherever else `SP` points, the
pushes are those of `PushPC`, and a push that faults makes the call fault. -/
def Obligations.CallResults : Prop :=
  ∀ (s : State), s.cfg.wf →
    let z := (readReg s 31).toNat * 256 + (readReg s 30).toNat
    let calls (i : Instr) (n target : Nat) : Prop :=
      CallsTo i s n target ∧
      (StackRoom s s.cfg.pcBytes →
        ∃ t, exec i s = .next t ∧ Called s t ((s.pc.toNat + n) % 2 ^ s.cfg.pcBits) target)
    (∀ k, calls (.rcall k) 1 (relTarget s k.toInt)) ∧
    (s.cfg.has .ijmpIcall = true → calls .icall 1 z) ∧
    (s.cfg.has .eijmpEicall = true →
      calls .eicall 1 ((s.eind &&& s.cfg.eindMask).toNat % 64 * 65536 + z)) ∧
    (s.cfg.has .jmpCall = true → ∀ k, calls (.call k) 2 k.toNat)

/-- `RET`, `RETI` (R142, R158, R159, R309): from an SRAM stack `PC` is the address popped, most significant byte first, and
`SP` rises by `PC_BYTES`; `RETI` also sets I and `irq_inhibit`, and restores nothing else; wherever else `SP` points, the
pops are those of `PopPC`, and a pop that faults makes the return fault. A stack byte never written pops as its free draw, the model's
choice of the two treatments R44 and U6 allow (log 4). -/
def Obligations.ReturnResults : Prop :=
  ∀ (s : State), s.cfg.wf →
    (∀ n u, popPc s = .ok (n, u) →
      exec .ret s = .next (setPc n u) ∧
      ∃ t, exec .reti s = .next t ∧ t.irqInhibit = true ∧ readFlag t .i = true ∧
        (∀ f, f ≠ .i → readFlag t f = readFlag s f) ∧
        t = { setPc n u with sreg := t.sreg, irqInhibit := true }) ∧
    (∀ f, popPc s = .error f → exec .ret s = .fault f ∧ exec .reti s = .fault f) ∧
    (StackHolds s s.cfg.pcBytes →
      (∃ t, exec .ret s = .next t ∧ t.pc.toNat = storedReturn s % 2 ^ s.cfg.pcBits ∧
        readSp t = above s s.cfg.pcBytes ∧ t = { s with pc := t.pc, sp := t.sp }) ∧
      (∃ t, exec .reti s = .next t ∧ t.pc.toNat = storedReturn s % 2 ^ s.cfg.pcBits ∧
        readSp t = above s s.cfg.pcBytes ∧ readFlag t .i = true ∧
        (∀ f, f ≠ .i → readFlag t f = readFlag s f) ∧
        t = { s with pc := t.pc, sp := t.sp, sreg := t.sreg, irqInhibit := true }))

/-- A call onto an SRAM stack and then `RET` come back to the instruction after the call, with every register, every flag,
`SP` and every byte of memory but those of the stack the call wrote as they were. -/
def Obligations.CallThenReturn : Prop :=
  ∀ (s t : State) (i : Instr), s.cfg.wf → isCall i = true → Present i s → StackRoom s s.cfg.pcBytes →
    exec i s = .next t →
    ∃ u, exec .ret t = .next u ∧ u.pc = pcPlus s i.words ∧ readSp u = readSp s ∧
      (∀ a, (∀ k, k < s.cfg.pcBytes → a ≠ (below s k).toNat) → sramByte u.sram a = sramByte s.sram a) ∧
      u = { s with pc := u.pc, sp := u.sp, sram := u.sram }

/-- `CPSE`, `SBRC`, `SBRS`, `SBIC`, `SBIS` (R143, R160, R164 to R167, R77): one word or two are passed over by the length of
the next instruction; `SBIC` and `SBIS` read the I/O register once whether or not they skip. That a device's answer is taken
from the script `ioInputs`, and the exchange listed in `ioTrace`, is the model's choice (log 5). -/
def Obligations.SkipResults : Prop :=
  ∀ (s : State) (d r : Reg) (b : BitVec 3) (a : BitVec 5),
    Skips (.cpse d r) s s (decide (readReg s d = readReg s r)) ∧
    Skips (.sbrc r b) s s (!bitAt (readReg s r) b.toNat) ∧
    Skips (.sbrs r b) s s (bitAt (readReg s r) b.toNat) ∧
    (∃ v u, u = { s with ioTrace := .read a.toNat v :: s.ioTrace, ioInputs := s.ioInputs.tail } ∧
      memRead (ioAddress a) s = .ok (v, u) ∧
      Skips (.sbic a b) s u (!bitAt v b.toNat) ∧ Skips (.sbis a b) s u (bitAt v b.toNat))

/-- `BRBS`, `BRBC` and rows 49 to 66 (R144, R168 to R187): each tests one stored flag, and changes `PC` alone. -/
def Obligations.BranchResults : Prop :=
  ∀ (s : State) (k : BitVec 7), s.cfg.wf →
    (∀ f, Branches (.brbs (BitVec.ofNat 3 f.bit) k) s (readFlag s f) k ∧
      Branches (.brbc (BitVec.ofNat 3 f.bit) k) s (!readFlag s f) k) ∧
    (∀ x ∈ namedBranches k, Branches x.1 s (readFlag s x.2.1 == x.2.2) k)

/-- After `CP` (R161's corner cases, R145): `BREQ`/`BRNE` decide equality, `BRLO`/`BRSH` and `BRCS`/`BRCC` the unsigned
order, `BRLT`/`BRGE` the signed order. -/
def Obligations.CompareThenBranch : Prop :=
  ∀ (s t : State) (d r : Reg) (k : BitVec 7), s.cfg.wf → exec (.cp d r) s = .next t →
    let a := readReg s d
    let b := readReg s r
    Branches (.breq k) t (decide (a = b)) k ∧ Branches (.brne k) t (decide (a ≠ b)) k ∧
    Branches (.brlo k) t (decide (a.toNat < b.toNat)) k ∧ Branches (.brcs k) t (decide (a.toNat < b.toNat)) k ∧
    Branches (.brsh k) t (decide (b.toNat ≤ a.toNat)) k ∧ Branches (.brcc k) t (decide (b.toNat ≤ a.toNat)) k ∧
    Branches (.brlt k) t (decide (a.toInt < b.toInt)) k ∧ Branches (.brge k) t (decide (b.toInt ≤ a.toInt)) k

/-- `NOP`, `BREAK`, `SLEEP`, `WDR` (R190 to R193) by their parameters: `PC` and the mode, or an event to the devices, and
nothing else. That the event is listed in `ioTrace` is the model's choice (log 5). -/
def Obligations.ControlResults : Prop :=
  ∀ (s : State),
    Completes .nop s 1 [] [] (fun _ => True) ∧
    (s.cfg.has .breakGroup = true → s.cfg.breakMode = .nop → Completes .brk s 1 [] [] (fun _ => True)) ∧
    (s.cfg.has .breakGroup = true → s.cfg.breakMode = .stop →
      exec .brk s = .next { s with pc := pcPlus s 1, mode := .stopped }) ∧
    (s.cfg.sleepModel = .nop → Completes .sleep s 1 [] [] (fun _ => True)) ∧
    (s.cfg.sleepModel = .sleep → exec .sleep s = .next { s with pc := pcPlus s 1, mode := .sleeping }) ∧
    (s.cfg.wdtModel = .absent → Completes .wdr s 1 [] [] (fun _ => True)) ∧
    (s.cfg.wdtModel = .device →
      exec .wdr s = .next { s with pc := pcPlus s 1, ioTrace := .wdr :: s.ioTrace })

/-! ## The data space, the stack, program memory -/

/-- The data-space map (R52 to R56): what an address reads as and what a write to it does, region by region. Two clauses rest on
the model's choices: that a device read returns the next entry of the script `ioInputs` (log 5), and that a byte of SRAM
never written reads as its free draw, which `sramAt` gives (log 4). -/
def Obligations.DataSpaceMap : Prop :=
  ∀ (s : State) (a : Word) (v : Byte), s.cfg.wf →
    (∀ h : a.toNat < 32,
      memRead a s = .ok (readReg s ⟨a.toNat, h⟩, s) ∧ memWrite a v s = .ok (writeReg ⟨a.toNat, h⟩ v s)) ∧
    (a.toNat = 0x5F → memRead a s = .ok (s.sreg, s) ∧ memWrite a v s = .ok { s with sreg := v }) ∧
    (a.toNat = 0x5E →
      memRead a s = .ok (hiByte (s.sp &&& s.cfg.spMask), s) ∧
      memWrite a v s = .ok { s with sp := (v ++ loByte (s.sp &&& s.cfg.spMask)) &&& s.cfg.spMask }) ∧
    (a.toNat = 0x5D →
      memRead a s = .ok (loByte (s.sp &&& s.cfg.spMask), s) ∧
      memWrite a v s = .ok { s with sp := (hiByte (s.sp &&& s.cfg.spMask) ++ v) &&& s.cfg.spMask }) ∧
    (a.toNat = 0x5C → s.cfg.hasEind = true →
      memRead a s = .ok (s.eind &&& s.cfg.eindMask, s) ∧
      memWrite a v s = .ok { s with eind := v &&& s.cfg.eindMask }) ∧
    (a.toNat = 0x5B → s.cfg.hasRampz = true →
      memRead a s = .ok (s.rampz &&& s.cfg.rampzMask, s) ∧
      memWrite a v s = .ok { s with rampz := v &&& s.cfg.rampzMask }) ∧
    ((0x20 ≤ a.toNat ∧ a.toNat ≤ 0x5A) ∨ (a.toNat = 0x5B ∧ s.cfg.hasRampz = false) ∨
      (a.toNat = 0x5C ∧ s.cfg.hasEind = false) ∨ (0x60 ≤ a.toNat ∧ a.toNat < s.cfg.ramStart) →
      (∃ x, memRead a s = .ok (x, { s with
        ioTrace := .read (a.toNat - 0x20) x :: s.ioTrace, ioInputs := s.ioInputs.tail }) ∧
        ∀ y rest, s.ioInputs = y :: rest → x = y) ∧
      memWrite a v s = .ok { s with ioTrace := .write (a.toNat - 0x20) v :: s.ioTrace }) ∧
    (s.cfg.ramStart ≤ a.toNat → a.toNat ≤ s.cfg.ramEnd →
      memRead a s = .ok (sramAt s a, s) ∧
      ∃ t, memWrite a v s = .ok t ∧ OnlyByte s t a.toNat v) ∧
    (s.cfg.ramEnd < a.toNat →
      memRead a s = .error (.badAddress a) ∧ memWrite a v s = .error (.badAddress a))

/-- A byte written to a register, to `SREG` or to SRAM reads back (R41, R71), and a write to any address changes what no
other address reads as; devices, of which nothing is assumed (R58), apart. A byte of SRAM never written reads as its free draw before
and after, the model's choice (log 4). -/
def Obligations.WriteThenRead : Prop :=
  ∀ (s t : State) (a b : Word) (v : Byte), s.cfg.wf → memWrite a v s = .ok t →
    ((a.toNat < 0x20 ∨ a.toNat = 0x5F ∨ s.cfg.ramStart ≤ a.toNat) → memRead a t = .ok (v, t)) ∧
    (a ≠ b → (∀ io, regionOf s.cfg b ≠ .device io) →
      (memRead b t).map Prod.fst = (memRead b s).map Prod.fst)

/-- R64: a push is a write at `SP` and then a decrement, a pop an increment and then a read, both through `SP_MASK`; the
stack accesses are ordinary data-space accesses, wherever `SP` points, and fault above `RAM_END`. That a push onto `SPL`
or `SPH` decrements the `SP` that the write left is the model's choice (log 14). -/
def Obligations.PushAndPop : Prop :=
  ∀ (s : State) (v : Byte), s.cfg.wf →
    (∀ u, memWrite (readSp s) v s = .ok u → ∃ t, push v s = .ok t ∧
      readSp t = (readSp u - 1#16) &&& s.cfg.spMask ∧ t = { u with sp := t.sp }) ∧
    (s.cfg.ramEnd < (readSp s).toNat → push v s = .error (.badAddress (readSp s))) ∧
    (let u := { s with sp := (readSp s + 1#16) &&& s.cfg.spMask }
     pop s = memRead ((readSp s + 1#16) &&& s.cfg.spMask) u ∧
     (s.cfg.ramEnd < ((readSp s + 1#16) &&& s.cfg.spMask).toNat →
       pop s = .error (.badAddress ((readSp s + 1#16) &&& s.cfg.spMask))))

/-- R65: `PushPC` onto an SRAM stack, which leaves `PC` and everything else but the stack bytes and `SP` as it was, and `PopPC`
after it. -/
def Obligations.PushPcThenPopPc : Prop :=
  ∀ (s : State) (v : Nat), s.cfg.wf → v < 2 ^ s.cfg.pcBits → StackRoom s s.cfg.pcBytes →
    ∃ t, pushPc v s = .ok t ∧ t.pc = s.pc ∧ Called s { t with pc := BitVec.ofNat 22 v } v v ∧
      ∃ u, popPc t = .ok (v, u) ∧ readSp u = readSp s ∧ u = { t with sp := u.sp }

/-- `LDS`, `LD`, `LDD` without a pointer update (R213, R214, R217, R220, R221, R224, R200, R202, R203): from every address that
exists, the byte there, and nothing else. Two points are the model's choices: whether a device with `LD_ST_VARIANTS` and
without `LDD_STD` has the words of `LD` by plain `Y`, `Z` and of `LDD` with q = 0 is the parameter `plainWithoutLdd`, the spec's rules
differing (log 24, through `Present`), and a byte of SRAM never written reads as its free draw (log 4). -/
def Obligations.LoadResults : Prop :=
  ∀ (s : State) (d : Reg) (k : Word) (q : BitVec 6), ∀ x ∈ plainLoads s d k q,
    Present x.1 s → x.2.1.toNat ≤ s.cfg.ramEnd →
    ∃ v u t, memRead x.2.1 s = .ok (v, u) ∧ exec x.1 s = .next t ∧
      readReg t d = v ∧ t.pc = pcPlus s x.2.2 ∧ OnlyLoaded s u t [d]

/-- `LD Rd, P+` and `LD Rd, -P` (R201, R215, R216, R218, R219, R222, R223): the access at P and then the increment, or the
decrement and then the access; both bytes of P are written, modulo 2^16. A byte of SRAM never written reads as its free draw, the
model's choice (log 4). -/
def Obligations.PointerLoadResults : Prop :=
  ∀ (s : State) (p : Pointer) (d : Reg), s.cfg.has .ldStVariants = true → p.holds d = false →
    ((readPointer s p).toNat ≤ s.cfg.ramEnd →
      ∃ v u t, memRead (readPointer s p) s = .ok (v, u) ∧ exec (ldInc p d) s = .next t ∧
        readReg t d = v ∧ (readPointer t p).toNat = ((readPointer s p).toNat + 1) % 65536 ∧
        t.pc = pcPlus s 1 ∧ OnlyLoaded s u t [d, p.low, p.low + 1]) ∧
    ((readPointer s p - 1#16).toNat ≤ s.cfg.ramEnd →
      ∃ v u t, memRead (readPointer s p - 1#16) (writePointer p (readPointer s p - 1#16) s) = .ok (v, u) ∧
        exec (ldDec p d) s = .next t ∧
        readReg t d = v ∧ (readPointer t p).toNat = ((readPointer s p).toNat + 65535) % 65536 ∧
        t.pc = pcPlus s 1 ∧ OnlyLoaded s u t [d, p.low, p.low + 1])

/-- `STS`, `ST`, `STD` without a pointer update (R225, R226, R229, R232, R233, R236, R203): the data-space write of `Rr` at the
operand's address; in SRAM, that byte alone changes. Whether a device with `LD_ST_VARIANTS` and without `LDD_STD` has
the words of `ST` by plain `Y`, `Z` and of `STD` with q = 0 is the parameter `plainWithoutLdd`, the model's choice where the spec's
rules differ (log 24, through `Present`). -/
def Obligations.StoreResults : Prop :=
  ∀ (s : State) (r : Reg) (k : Word) (q : BitVec 6), ∀ x ∈ plainStores s r k q, Present x.1 s →
    (x.2.1.toNat ≤ s.cfg.ramEnd →
      ∃ u, memWrite x.2.1 (readReg s r) s = .ok u ∧ exec x.1 s = .next { u with pc := pcPlus s x.2.2 }) ∧
    (regionOf s.cfg x.2.1 = .sram →
      ∃ t, exec x.1 s = .next t ∧ t.pc = pcPlus s x.2.2 ∧ OnlyByte s t x.2.1.toNat (readReg s r))

/-- `ST P+, Rr` and `ST -P, Rr` (R201, R227, R228, R230, R231, R234, R235): the write at P and then P + 1, computed from P before
the write; or the write at P - 1 and P - 1 left in P. In SRAM, that byte and the pointer alone change. Where a pre-decrement
store falls on its own pointer register, the pointer update is what stays, as D17 rules and the line of R228 does not (log 15). -/
def Obligations.PointerStoreResults : Prop :=
  ∀ (s : State) (p : Pointer) (r : Reg), s.cfg.has .ldStVariants = true → p.holds r = false →
    let a := readPointer s p
    let b := readPointer s p - 1#16
    (a.toNat ≤ s.cfg.ramEnd →
      ∃ u, memWrite a (readReg s r) s = .ok u ∧
        exec (stInc p r) s = .next { writePointer p (a + 1#16) u with pc := pcPlus s 1 }) ∧
    (regionOf s.cfg a = .sram →
      ∃ t, exec (stInc p r) s = .next t ∧ t.pc = pcPlus s 1 ∧
        OnlyByte { s with regs := t.regs } t a.toNat (readReg s r) ∧
        (readPointer t p).toNat = (a.toNat + 1) % 65536 ∧
        ∀ e, e ∉ [p.low, p.low + 1] → readReg t e = readReg s e) ∧
    (b.toNat ≤ s.cfg.ramEnd →
      ∃ u, memWrite b (readReg s r) s = .ok u ∧
        exec (stDec p r) s = .next { writePointer p b u with pc := pcPlus s 1 }) ∧
    (regionOf s.cfg b = .sram →
      ∃ t, exec (stDec p r) s = .next t ∧ t.pc = pcPlus s 1 ∧
        OnlyByte { s with regs := t.regs } t b.toNat (readReg s r) ∧
        (readPointer t p).toNat = (a.toNat + 65535) % 65536 ∧
        ∀ e, e ∉ [p.low, p.low + 1] → readReg t e = readReg s e)

/-- R209: a post-increment or pre-decrement form whose data register is one of its pointer's two faults, and these are the
28 words concerned. -/
def Obligations.UndefinedOperandsFault : Prop :=
  (∀ (s : State) (p : Pointer) (d : Reg), p.holds d = true → s.cfg.has .ldStVariants = true →
    ∀ i ∈ [ldInc p d, ldDec p d, stInc p d, stDec p d],
      exec i s = .fault (.undefinedOperands (firstWord i) s.pc)) ∧
  (∀ (s : State) (d : Reg), d = 30 ∨ d = 31 →
    (s.cfg.has .lpmVariants = true →
      exec (.lpmZInc d) s = .fault (.undefinedOperands (firstWord (.lpmZInc d)) s.pc)) ∧
    (s.cfg.has .elpm = true →
      exec (.elpmZInc d) s = .fault (.undefinedOperands (firstWord (.elpmZInc d)) s.pc))) ∧
  (∀ x ∈ [(0x91AD#16, Instr.ldXInc 26), (0x91BD#16, .ldXInc 27), (0x91AE#16, .ldXDec 26),
      (0x91BE#16, .ldXDec 27), (0x91C9#16, .ldYInc 28), (0x91D9#16, .ldYInc 29), (0x91CA#16, .ldYDec 28),
      (0x91DA#16, .ldYDec 29), (0x91E1#16, .ldZInc 30), (0x91F1#16, .ldZInc 31), (0x91E2#16, .ldZDec 30),
      (0x91F2#16, .ldZDec 31),
      (0x93AD#16, .stXInc 26), (0x93BD#16, .stXInc 27), (0x93AE#16, .stXDec 26),
      (0x93BE#16, .stXDec 27), (0x93C9#16, .stYInc 28), (0x93D9#16, .stYInc 29), (0x93CA#16, .stYDec 28),
      (0x93DA#16, .stYDec 29), (0x93E1#16, .stZInc 30), (0x93F1#16, .stZInc 31), (0x93E2#16, .stZDec 30),
      (0x93F2#16, .stZDec 31),
      (0x91E5#16, .lpmZInc 30), (0x91F5#16, .lpmZInc 31), (0x91E7#16, .elpmZInc 30), (0x91F7#16, .elpmZInc 31)],
    decodeOp x.1 0#16 = .ok x.2 ∧ firstWord x.2 = x.1)

/-- The byte of program memory that byte address `b` selects (R62): the low byte of the word at `b / 2` if `b` is even, the
high byte if it is odd. -/
def Obligations.LpmResults : Prop :=
  ∀ (s : State) (d : Reg), s.cfg.has .lpmVariants = true →
    let z := readPointer s .z
    let w := flashWord s.flash (z.toNat / 2)
    let byte := if z.toNat % 2 = 0 then loByte w else hiByte w
    z.toNat / 2 < s.cfg.flashWords →
    Completes .lpm s 1 [0] [] (fun t => readReg t 0 = byte) ∧
    Completes (.lpmZ d) s 1 [d] [] (fun t => readReg t d = byte) ∧
    (d ≠ 30 → d ≠ 31 → Completes (.lpmZInc d) s 1 [d, 30, 31] [] (fun t =>
      readReg t d = byte ∧ (readPointer t .z).toNat = (z.toNat + 1) % 65536))

/-- `ELPM` (R240 to R242, R63): the byte at `RAMPZ:Z`; `ELPM Rd, Z+` increments the 24-bit `RAMPZ:Z`. -/
def Obligations.ElpmResults : Prop :=
  ∀ (s : State) (d : Reg), s.cfg.has .elpm = true →
    let a := (s.rampz &&& s.cfg.rampzMask).toNat * 65536 + (readPointer s .z).toNat
    let w := flashWord s.flash (a / 2)
    let byte := if a % 2 = 0 then loByte w else hiByte w
    a / 2 < s.cfg.flashWords →
    Completes .elpm s 1 [0] [] (fun t => readReg t 0 = byte) ∧
    Completes (.elpmZ d) s 1 [d] [] (fun t => readReg t d = byte) ∧
    (d ≠ 30 → d ≠ 31 → ∃ t, exec (.elpmZInc d) s = .next t ∧ t.pc = pcPlus s 1 ∧
      readReg t d = byte ∧ (readPointer t .z).toNat = (a + 1) % 65536 ∧
      t.rampz = BitVec.ofNat 8 ((a + 1) % 2 ^ 24 / 65536) &&& s.cfg.rampzMask ∧
      (∀ e, e ∉ [d, 30, 31] → readReg t e = readReg s e) ∧
      t = { s with pc := t.pc, regs := t.regs, rampz := t.rampz })

/-- `SPM` (R243). With `SPM_MODEL` = refuse it faults. With `SPM_MODEL` = device, the model's choice (log 9): it completes, the
controller is handed `RAMPZ:Z` (`Z` without `RAMPZ`) and `R1:R0`, and only program memory may change, within `FLASH_WORDS`. -/
def Obligations.SpmResults : Prop :=
  ∀ (s : State), s.cfg.has .spm = true →
    (s.cfg.spmModel = .refuse → exec .spm s = .fault (.unmodelled s.pc)) ∧
    (s.cfg.spmModel = .device → Memory.flashWf s.cfg s.flash →
      ∃ t z, exec .spm s = .next t ∧ t.pc = pcPlus s 1 ∧
        z = (if s.cfg.hasRampz then (s.rampz &&& s.cfg.rampzMask).toNat * 65536 else 0) +
          (readPointer s .z).toNat ∧
        t.ioTrace = .spm z (readPair s 0) :: s.ioTrace ∧
        Memory.flashWf s.cfg t.flash ∧
        (∀ b, 2 * s.cfg.flashWords ≤ b → flashByte t.flash b = flashByte s.flash b) ∧
        t = { s with pc := t.pc, flash := t.flash, ioTrace := t.ioTrace })

/-- `IN`, `OUT` (R244, R245, R56, R204): the data-space access at A + 0x20, which always exists; `SREG` and the bytes of `SP`
at 0x3F, 0x3E, 0x3D; `OUT` never sets `irq_inhibit`. -/
def Obligations.InOutResults : Prop :=
  ∀ (s : State) (d r : Reg),
    (∀ a, ∃ v u t, memRead (BitVec.ofNat 16 (a.toNat + 0x20)) s = .ok (v, u) ∧
      exec (.inp d a) s = .next t ∧ readReg t d = v ∧ t.pc = pcPlus s 1 ∧ OnlyLoaded s u t [d]) ∧
    (∀ a, ∃ u, memWrite (BitVec.ofNat 16 (a.toNat + 0x20)) (readReg s r) s = .ok u ∧
      exec (.out a r) s = .next { u with pc := pcPlus s 1 } ∧ u.irqInhibit = s.irqInhibit) ∧
    Completes (.inp d 0x3F#6) s 1 [d] [] (fun t => ∀ f, bitAt (readReg t d) f.bit = readFlag s f) ∧
    Completes (.inp d 0x3E#6) s 1 [d] [] (fun t => readReg t d = hiByte (readSp s)) ∧
    Completes (.inp d 0x3D#6) s 1 [d] [] (fun t => readReg t d = loByte (readSp s)) ∧
    Completes (.out 0x3F#6 r) s 1 [] [.c, .z, .n, .v, .s, .h, .t, .i]
      (fun t => ∀ f, readFlag t f = bitAt (readReg s r) f.bit)

/-- `SBI`, `CBI` (R273, R274, R264, R59): one read and then one write of the whole byte, one bit changed; only the exchange
with the devices changes. That a device's answer is the next entry of the script `ioInputs`, and that the exchange is listed in
`ioTrace`, is the model's choice (log 5). -/
def Obligations.SbiCbiResults : Prop :=
  ∀ (s : State) (a : BitVec 5) (b : BitVec 3),
    let changes (i : Instr) (bit : Bool) : Prop :=
      ∃ t v w, exec i s = .next t ∧ t.pc = pcPlus s 1 ∧
        t.ioTrace = .write a.toNat w :: .read a.toNat v :: s.ioTrace ∧
        (∀ y rest, s.ioInputs = y :: rest → v = y) ∧
        (∀ j, j < 8 → bitAt w j = if j = b.toNat then bit else bitAt v j) ∧
        t = { s with pc := t.pc, ioTrace := t.ioTrace, ioInputs := s.ioInputs.tail }
    changes (.sbi a b) true ∧ changes (.cbi a b) false

/-- `PUSH`, `POP` (R246, R247, R64): onto and from an SRAM stack, the one byte and `SP`; wherever else `SP` points, the access of
`Push` and `Pop`, whose fault is theirs; `PUSH` and then `POP` of one register restore it and `SP`. A byte of SRAM never written pops
as its free draw, the model's choice (log 4). -/
def Obligations.PushPopResults : Prop :=
  ∀ (s : State) (d r : Reg), s.cfg.has .pushPop = true →
    (∀ u, push (readReg s r) s = .ok u → exec (.push r) s = .next { u with pc := pcPlus s 1 }) ∧
    (∀ f, push (readReg s r) s = .error f → exec (.push r) s = .fault f) ∧
    (∀ v u, pop s = .ok (v, u) → ∃ t, exec (.pop d) s = .next t ∧ t.pc = pcPlus s 1 ∧ readReg t d = v ∧
      (∀ e, e ≠ d → readReg t e = readReg s e) ∧ t = { u with pc := t.pc, regs := t.regs }) ∧
    (∀ f, pop s = .error f → exec (.pop d) s = .fault f) ∧
    (StackRoom s 1 → ∃ t u, exec (.push r) s = .next t ∧ readSp t = readSp s - 1#16 ∧
      OnlyByte { s with sp := t.sp } t (readSp s).toNat (readReg s r) ∧ t.pc = pcPlus s 1 ∧
      exec (.pop r) t = .next u ∧ readSp u = readSp s ∧ ∀ e, readReg u e = readReg s e) ∧
    (StackHolds s 1 → ∃ t, exec (.pop d) s = .next t ∧ readReg t d = sramAt s (readSp s + 1#16) ∧
      readSp t = readSp s + 1#16 ∧ t.pc = pcPlus s 1 ∧ (∀ e, e ≠ d → readReg t e = readReg s e) ∧
      t = { s with pc := t.pc, regs := t.regs, sp := t.sp })

/-! ## Faults -/

/-- R88: a word of an optional group the device lacks faults, whatever the instruction, with its group and its word. Whether the
words of `LD` and `ST` by plain `Y` and `Z` are in `LD_ST_VARIANTS` too and fault only where the device lacks both groups, or in `LDD_STD`
alone, is the parameter `plainWithoutLdd`, the model's choice where the spec's rules differ (log 24); the fault names `LDD_STD`. -/
def Obligations.AbsentGroupFaults : Prop :=
  ∀ (i : Instr) (s : State) (g : Group) (rest : List Group), groupsOf s.cfg i = g :: rest →
    (∀ h ∈ g :: rest, s.cfg.has h = false) →
    exec i s = .fault (.unimplemented g (firstWord i) s.pc)

/-- R205: a data-space access above `RAM_END` and a program-memory read beyond `FLASH_WORDS` fault with the address, and the
instruction has no effect, a pointer update of its own included. The word address of `LPM` and `ELPM` is not reduced modulo
2^`PC_BITS`, as R62 and R237 have it and R61 read alone does not (log 11). Which devices have the
words of a plain `LD` or `ST` by `Y` or `Z` is the parameter `plainWithoutLdd` where the spec's rules differ (log 24, through `Present`). -/
def Obligations.AccessFaults : Prop :=
  ∀ (s : State) (d : Reg) (k : Word) (q : BitVec 6), s.cfg.wf →
    (∀ x ∈ plainLoads s d k q ++ plainStores s d k q, Present x.1 s → s.cfg.ramEnd < x.2.1.toNat →
      exec x.1 s = .fault (.badAddress x.2.1)) ∧
    (∀ p : Pointer, p.holds d = false → s.cfg.has .ldStVariants = true →
      (s.cfg.ramEnd < (readPointer s p).toNat → ∀ i ∈ [ldInc p d, stInc p d],
        exec i s = .fault (.badAddress (readPointer s p))) ∧
      (s.cfg.ramEnd < (readPointer s p - 1#16).toNat → ∀ i ∈ [ldDec p d, stDec p d],
        exec i s = .fault (.badAddress (readPointer s p - 1#16)))) ∧
    (s.cfg.has .lpmVariants = true → s.cfg.flashWords ≤ (readPointer s .z).toNat / 2 →
      (∀ i ∈ [Instr.lpm, .lpmZ d], exec i s = .fault (.badFetch ((readPointer s .z).toNat / 2))) ∧
      (d ≠ 30 → d ≠ 31 → exec (.lpmZInc d) s = .fault (.badFetch ((readPointer s .z).toNat / 2)))) ∧
    (s.cfg.has .elpm = true → s.cfg.flashWords ≤ extendedZ s / 2 →
      (∀ i ∈ [Instr.elpm, .elpmZ d], exec i s = .fault (.badFetch (extendedZ s / 2))) ∧
      (d ≠ 30 → d ≠ 31 → exec (.elpmZInc d) s = .fault (.badFetch (extendedZ s / 2))))

/-! ## Interrupts, modes, reset -/

/-- R307: entry of vector n onto an SRAM stack pushes `PC`, clears I, runs, goes to the vector, acknowledges; no other flag, no
register, no byte of memory outside the stack bytes and no other field changes. Wherever else `SP` points (a stack in the
registers or the I/O region), the pushes are those of `PushPC`, after which the same happens, and a push that faults makes the
entry fault. Two clauses are the model's choices for what R307 and R303 call `Irq.ack(n)`: that it is listed in `ioTrace` (log 5), and
that at most request n goes (R303; log 7). -/
def Obligations.InterruptEntrySavesOnlyPc : Prop :=
  ∀ (s : State) (n : Nat), s.cfg.wf →
    (∀ u, pushPc s.pc.toNat s = .ok u →
      ∃ t, enterInterrupt n s = .next t ∧ EntersVector n s u t) ∧
    (∀ f, pushPc s.pc.toNat s = .error f → enterInterrupt n s = .fault f) ∧
    (StackRoom s s.cfg.pcBytes →
      ∃ t, enterInterrupt n s = .next t ∧
        readFlag t .i = false ∧ (∀ f, f ≠ .i → readFlag t f = readFlag s f) ∧
        t.mode = .running ∧ t.ioTrace = .ack n :: s.ioTrace ∧
        (∀ m, m ∈ t.requests → m ∈ s.requests) ∧ (∀ m, m ≠ n → m ∈ s.requests → m ∈ t.requests) ∧
        Called { s with sreg := t.sreg, mode := t.mode, ioTrace := t.ioTrace, requests := t.requests } t
          (s.pc.toNat % 2 ^ s.cfg.pcBits) (s.cfg.vectorBase + n * s.cfg.vectorStride))

/-- R304 to R306: where no reset is offered, the step is the entry of the lowest requested vector exactly when the mode is not
stopped, I = 1, `irq_inhibit` = 0 and a request is pending; otherwise no interrupt is taken. That resets and requests come from the
script `env` (`takeBoundary`) is the model's choice (log 6). -/
def Obligations.InterruptSampling : Prop :=
  ∀ (s u : State), takeBoundary s = (false, u) →
    (∀ n, 1 ≤ n → n < u.cfg.nVectors → n ∈ u.requests →
      (∀ m, 1 ≤ m → m < u.cfg.nVectors → m ∈ u.requests → n ≤ m) →
      u.mode ≠ .stopped → readFlag u .i = true → u.irqInhibit = false → step s = enterInterrupt n u) ∧
    ((u.mode = .stopped ∨ readFlag u .i = false ∨ u.irqInhibit = true ∨
      ∀ n, 1 ≤ n → n < u.cfg.nVectors → n ∉ u.requests) → step s = executeWith exec u)

/-- Entry and then `RETI` (R307, R309): back at the interrupted instruction, with every register, every flag, `SP` and every byte
of memory but those of the stack the entry wrote as they were, and one instruction to run before the next interrupt. What the entry
tells the devices and which request it clears are the model's choices (log 5, log 7). -/
def Obligations.InterruptThenReti : Prop :=
  ∀ (s t : State) (n : Nat), s.cfg.wf → s.pc.toNat < 2 ^ s.cfg.pcBits → StackRoom s s.cfg.pcBytes →
    readFlag s .i = true → enterInterrupt n s = .next t →
    ∃ u, exec .reti t = .next u ∧ u.pc = s.pc ∧ u.sreg = s.sreg ∧ readSp u = readSp s ∧
      u.irqInhibit = true ∧ u.mode = .running ∧
      (∀ a, (∀ k, k < s.cfg.pcBytes → a ≠ (below s k).toNat) → sramByte u.sram a = sramByte s.sram a) ∧
      u = { s with
        sp := u.sp, sram := u.sram, mode := .running, irqInhibit := true,
        requests := t.requests, ioTrace := t.ioTrace }

/-- R311: while `irq_inhibit` = 1 a running machine that is offered no reset executes its next instruction, whatever is
pending, and `irq_inhibit` is then 0 unless that instruction set it. That it is cleared before the instruction and not after is the
model's reading (log 18), and the script behind `takeBoundary` its choice (log 6). -/
def Obligations.InhibitDelaysOneInstruction : Prop :=
  ∀ (s u t : State), takeBoundary s = (false, u) → s.mode = .running → s.irqInhibit = true →
    step s = .next t →
    ∃ i, fetch u = .ok i ∧ exec i { u with irqInhibit := false } = .next t ∧
      (t.irqInhibit = true → i = .reti ∨ ((i = .sei ∨ i = .bset 7#3) ∧ readFlag s .i = false))

/-- R311: only `RETI`, and the word of `SEI` with I = 0, set `irq_inhibit`; in particular no write to `SREG` as data does. -/
def Obligations.InhibitSetOnlyBySeiAndReti : Prop :=
  ∀ (i : Instr) (s t : State), exec i s = .next t → s.irqInhibit = false →
    (t.irqInhibit = true ↔ i = .reti ∨ ((i = .sei ∨ i = .bset 7#3) ∧ readFlag s .i = false))

/-- R330, R44: a reset offered at a boundary is taken whatever the mode, I, `irq_inhibit` and the requests are. Registers and
both memories are kept. That the requests are dropped and the devices told is the model's choice (log 8). -/
def Obligations.ResetEventEffect : Prop :=
  ∀ (s u : State), s.cfg.wf → takeBoundary s = (true, u) →
    ∃ t, step s = .next t ∧ t.pc.toNat = s.cfg.resetPc % 2 ^ s.cfg.pcBits ∧ (∀ f, readFlag t f = false) ∧
      readSp t = s.cfg.spReset &&& s.cfg.spMask ∧ t.rampz = 0#8 ∧ t.eind = 0#8 ∧ t.mode = .running ∧
      t.irqInhibit = false ∧ t.regs = s.regs ∧ t.sram = s.sram ∧ t.flash = s.flash ∧
      t.requests = [] ∧ t.ioTrace = .reset :: s.ioTrace

/-- R319, R320: where no reset is offered, a stopped machine, and a sleeping one for which the test of R305 fails (I = 0, or
`irq_inhibit` = 1, or no request of a vector), stays as it is but for what the outside world raised or withdrew. That a step of a
stopped machine, whose run R319 calls ended, answers a state is the model's reading (log 17); the script behind `takeBoundary` is
its choice (log 6). -/
def Obligations.StoppedAndSleeping : Prop :=
  ∀ (s u : State), takeBoundary s = (false, u) →
    (s.mode = .stopped ∨ (s.mode = .sleeping ∧
      (readFlag s .i = false ∨ s.irqInhibit = true ∨
        ∀ n, 1 ≤ n → n < s.cfg.nVectors → n ∉ u.requests))) →
    step s = .next u ∧
      u = { s with requests := u.requests, env := u.env }

/-- Only `BREAK` with `BREAK_MODE` = stop and `SLEEP` with `SLEEP_MODEL` = sleep change the mode (R190, R192, R316). -/
def Obligations.ModeChangesOnlyByBreakAndSleep : Prop :=
  ∀ (i : Instr) (s t : State), exec i s = .next t → t.mode ≠ s.mode →
    (i = .brk ∧ s.cfg.breakMode = .stop ∧ t.mode = .stopped) ∨
    (i = .sleep ∧ s.cfg.sleepModel = .sleep ∧ t.mode = .sleeping)

/-! ## The machine as a whole -/

/-- R14, R90: where no reset is offered and no interrupt is taken, a running machine whose words at `PC` and `PC` + 1 decode to an
instruction does exactly what `exec` says, with `irq_inhibit` cleared first, which is the model's reading of R305 (log 18); the
script behind `takeBoundary` is its choice (log 6). -/
def Obligations.StepRunsDecoded : Prop :=
  ∀ (s u : State) (i : Instr) (rest : List Word), takeBoundary s = (false, u) → interruptToTake u = none →
    u.mode = .running →
    let w := u.pc.toNat % 2 ^ u.cfg.pcBits
    let w1 := (u.pc.toNat + 1) % 2 ^ u.cfg.pcBits
    w < u.cfg.flashWords → (i.words = 2 → w1 < u.cfg.flashWords) → i.wf = true →
    decode [flashWord u.flash w, flashWord u.flash w1] = .ok (i, rest) →
    step s = exec i { u with irqInhibit := false }

/-- R61, R87: `PmWord`; and, where no reset is offered and no interrupt is taken, what the fetch reads and where it faults. The
first word is that at `PC`, the second of a two-word instruction that at `PC` + 1, both modulo 2^`PC_BITS`; either beyond program
memory faults, the second whatever else would (R67); a reserved word faults. That the second word's fault comes before that of an
absent group is the model's choice of R301's order over the steps of R90 (log 10). -/
def Obligations.FetchFaults : Prop :=
  (∀ (s : State) (n : Nat),
    let w := n % 2 ^ s.cfg.pcBits
    (w < s.cfg.flashWords → pmWord n s = .ok (flashWord s.flash w)) ∧
    (s.cfg.flashWords ≤ w → pmWord n s = .error (.badFetch w))) ∧
  ∀ (s u : State), takeBoundary s = (false, u) → interruptToTake u = none → u.mode = .running →
    let w := u.pc.toNat % 2 ^ u.cfg.pcBits
    let w1 := (u.pc.toNat + 1) % 2 ^ u.cfg.pcBits
    (u.cfg.flashWords ≤ w → step s = .fault (.badFetch w)) ∧
    (w < u.cfg.flashWords →
      (reservedWord (flashWord u.flash w) = true →
        step s = .fault (.reservedOpcode (flashWord u.flash w) u.pc)) ∧
      (isTwoWord (flashWord u.flash w) = true →
        (u.cfg.flashWords ≤ w1 → step s = .fault (.badFetch w1)) ∧
        (w1 < u.cfg.flashWords → fetch u = decodeAt (flashWord u.flash w) (flashWord u.flash w1) u)) ∧
      (isTwoWord (flashWord u.flash w) = false →
        fetch u = decodeAt (flashWord u.flash w) 0#16 u))

/-- The state after reset meets the invariant, for every device that meets R7 and whatever its registers come up holding. The
parameters and values of `State.reset` itself are the model's choices (log 1, log 2, log 3). -/
def Obligations.ResetMeetsInvariant : Prop :=
  State.reset.Inv ∧ ∀ (c : Config) (r : Vector Byte 32), c.wf → (State.powerOn c r).Inv

/-- Every step keeps the invariant: `PC` has `PC_BITS` bits, `SP`, `RAMPZ` and `EIND` stay within their masks and are zero where
they do not exist, both memories stay in canonical form, the requests stay a rising list of vector numbers. -/
def Obligations.StepKeepsInvariant : Prop :=
  ∀ (s t : State), s.Inv → step s = .next t → t.Inv

/-- No step changes the parameters (R20), and only `SPM` with `SPM_MODEL` = device changes program memory (R40, R73). -/
def Obligations.ProgramMemoryChangesOnlyBySpm : Prop :=
  (∀ (s t : State), step s = .next t → t.cfg = s.cfg) ∧
  (∀ (i : Instr) (s t : State), exec i s = .next t → i ≠ .spm ∨ s.cfg.spmModel = .refuse →
    t.flash = s.flash)

/-- R14, R304, R204 over all instructions but the calls: SRAM changes only at the address the instruction stores to, I changes only by
`SEI`, `CLI`, `BSET 7`, `BCLR 7`, `RETI` or a store at the address of `SREG`, and a data transfer changes `SREG` only by such a store. -/
def Obligations.StoresAndStatusFrame : Prop :=
  ∀ (i : Instr) (s t : State), exec i s = .next t → isCall i = false →
    (∀ a, storeAddress i s ≠ some a → sramAt t a = sramAt s a) ∧
    (readFlag t .i ≠ readFlag s .i →
      i ∈ [Instr.sei, .cli, .bset 7#3, .bclr 7#3, .reti] ∨ storeAddress i s = some 0x5F#16) ∧
    (isTransfer i = true → t.sreg ≠ s.sreg → storeAddress i s = some 0x5F#16)

/-! ## Encoding -/

/-- Decoding the words of a well-formed instruction gives the row that defines them (R83, R90), and what follows is left. -/
def Obligations.DecodeOfEncode : Prop :=
  ∀ (i : Instr) (rest : List Word), i.wf = true → decode (encode i ++ rest) = .ok (i.canonical, rest)

/-- Whatever decodes is a well-formed instruction of a defining row, whose words are the words decoded: no bit of an encoding is
dropped (R78 to R81). -/
def Obligations.EncodeOfDecode : Prop :=
  ∀ (w0 w1 : Word) (i : Instr), decodeOp w0 w1 = .ok i →
    i.wf = true ∧ i.canonical = i ∧ encode i = if i.words = 2 then [w0, w1] else [w0]

/-- R85: the reserved first words, 1699 in all, and every other first word matched by exactly one row. -/
def Obligations.ReservedWords : Prop :=
  (∀ w : Word, (opTable.filter (fun row => w &&& row.mask == row.pat)).length =
    if reservedWord w then 0 else 1) ∧
  ((List.range 65536).filter (fun n => reservedWord (BitVec.ofNat 16 n))).length = 1699

/-- R76: the length test, the one that the fetch and the skips make (`isTwoWord`), on every first word, reserved words included
(R77), and that it says which instructions are two words long (R75). -/
def Obligations.LengthTest : Prop :=
  (∀ w0 : Word, isTwoWord w0 = true ↔
    w0 &&& 0xFE0F#16 = 0x9000#16 ∨ w0 &&& 0xFE0F#16 = 0x9200#16 ∨
      w0 &&& 0xFE0E#16 = 0x940C#16 ∨ w0 &&& 0xFE0E#16 = 0x940E#16) ∧
  (∀ (w0 w1 : Word) (i : Instr), decodeOp w0 w1 = .ok i →
    (i.words = 2 ↔ w0 &&& 0xFE0F#16 = 0x9000#16 ∨ w0 &&& 0xFE0F#16 = 0x9200#16 ∨
      w0 &&& 0xFE0E#16 = 0x940C#16 ∨ w0 &&& 0xFE0E#16 = 0x940E#16) ∧
    (w0 &&& 0xFE0F#16 = 0x9000#16 ↔ ∃ d k, i = .lds d k) ∧
    (w0 &&& 0xFE0F#16 = 0x9200#16 ↔ ∃ k r, i = .sts k r) ∧
    (w0 &&& 0xFE0E#16 = 0x940C#16 ↔ ∃ k, i = .jmp k) ∧
    (w0 &&& 0xFE0E#16 = 0x940E#16 ↔ ∃ k, i = .call k)) ∧
  (∀ w0 : Word, (w0 &&& 0xFE0E#16 = 0x940C#16 ∨ w0 &&& 0xFE0E#16 = 0x940E#16) ↔
    w0 &&& 0xFE0C#16 = 0x940C#16)

/-- A few words of the spec's examples and decode vectors, one of each format of R78 or more. -/
def Obligations.DecodeExamples : Prop :=
  ∀ x ∈ [(16, 0x0F01, Instr.add 16 17), (16, 0x96CF, .adiw 24 63#6), (16, 0x5F0F, .subi 16 0xFF#8),
      (16, 0x0309, .fmul 16 17), (16, 0xCFFD, .rjmp 0xFFD#12), (32, 0x2000940F, .call 0x12000#22),
      (16, 0xF600, .brbc 0#3 0x40#7), (16, 0xFE57, .sbrs 5 7#3), (16, 0x01CF, .movw 24 30),
      (32, 0x01239100, .lds 16 0x0123#16), (16, 0xAC4F, .lddY 4 63#6), (16, 0xAE57, .stdZ 63#6 5),
      (16, 0xB60F, .inp 0 0x3F#6), (16, 0x9A2B, .sbi 5#5 3#3), (16, 0x9468, .bset 6#3),
      (16, 0x9500, .com 16), (16, 0x905C, .ldX 5), (16, 0x9508, .ret)],
    decodeTableWord x.1 x.2.1 = some x.2.2

/-- R83: an alias row and the row that defines its word do the same in every state. -/
def Obligations.AliasesActAlike : Prop :=
  ∀ (i : Instr) (s : State), exec i s = exec i.canonical s
end

