-- ==== Sys2Proof/Laws/Flags.lean ====
section
/-! SUPPORT. What each flag computation leaves in each flag, so that no proof unfolds a status byte. -/

namespace Sys2Proof.Machine

/-- A bit of a byte with one bit changed. -/
theorem bitAt_putBit (x : Byte) (b c : Nat) (v : Bool) (hb : b < 8) :
    bitAt (putBit x b v) c = if c = b then v else bitAt x c := by
  have h1 : (1#8 <<< b).getLsbD c = (decide (c < 8) && decide (c = b)) := by
    by_cases hc : c < 8
    · simp only [BitVec.getLsbD_shiftLeft, BitVec.getLsbD_one]
      by_cases hcb : c < b
      · simp [hcb, hc]; omega
      · have : (c - b = 0) ↔ (c = b) := by omega
        simp [hcb, hc, this]
    · simp [hc]
  simp only [bitAt, putBit]
  split
  · simp only [BitVec.getLsbD_or, h1]
    by_cases hc : c = b <;> simp_all
  · simp only [BitVec.getLsbD_and, BitVec.getLsbD_not, h1]
    by_cases hc : c = b
    · simp_all
    · by_cases hc8 : c < 8
      · simp_all
      · simp_all [BitVec.getLsbD_of_ge]

theorem Flag.bit_lt (f : Flag) : f.bit < 8 := by cases f <;> decide

theorem Flag.bit_inj {f g : Flag} : f.bit = g.bit ↔ f = g := by
  cases f <;> cases g <;> decide

@[simp] theorem flagOf_putFlag (sr : Byte) (f g : Flag) (v : Bool) :
    flagOf (putFlag sr f v) g = if g = f then v else flagOf sr g := by
  simp only [flagOf, putFlag, bitAt_putBit _ _ _ _ f.bit_lt, Flag.bit_inj]

/-- A status byte is its eight flags. -/
theorem sreg_ext {x y : Byte} (h : ∀ f, flagOf x f = flagOf y f) : x = y := by
  apply BitVec.eq_of_getLsbD_eq
  intro i hi
  have : i = 0 ∨ i = 1 ∨ i = 2 ∨ i = 3 ∨ i = 4 ∨ i = 5 ∨ i = 6 ∨ i = 7 := by omega
  rcases this with rfl | rfl | rfl | rfl | rfl | rfl | rfl | rfl
  · exact h .c
  · exact h .z
  · exact h .n
  · exact h .v
  · exact h .s
  · exact h .h
  · exact h .t
  · exact h .i

@[simp] theorem flagOf_putNVS (sr : Byte) (n v : Bool) (g : Flag) :
    flagOf (putNVS sr n v) g =
      match g with | .n => n | .v => v | .s => n ^^ v | g => flagOf sr g := by
  cases g <;> simp [putNVS]

@[simp] theorem flagOf_plainZ (r sr : Byte) (g : Flag) :
    flagOf (plainZ r sr) g = match g with | .z => r == 0#8 | g => flagOf sr g := by
  cases g <;> simp [plainZ]

@[simp] theorem flagOf_carriedZ (r sr : Byte) (g : Flag) :
    flagOf (carriedZ r sr) g =
      match g with | .z => r == 0#8 && flagOf sr .z | g => flagOf sr g := by
  cases g <;> simp [carriedZ]

@[simp] theorem flagOf_addFlags (a b r sr : Byte) (g : Flag) :
    flagOf (addFlags a b r sr) g =
      match g with
      | .h => (bitAt a 3 && bitAt b 3) || (bitAt b 3 && !bitAt r 3) || (!bitAt r 3 && bitAt a 3)
      | .v => (bitAt a 7 && bitAt b 7 && !bitAt r 7) || (!bitAt a 7 && !bitAt b 7 && bitAt r 7)
      | .c => (bitAt a 7 && bitAt b 7) || (bitAt b 7 && !bitAt r 7) || (!bitAt r 7 && bitAt a 7)
      | .n => bitAt r 7
      | .s => bitAt r 7 ^^
        ((bitAt a 7 && bitAt b 7 && !bitAt r 7) || (!bitAt a 7 && !bitAt b 7 && bitAt r 7))
      | .z => r == 0#8
      | .t => flagOf sr .t
      | .i => flagOf sr .i := by
  cases g <;> simp [addFlags]

@[simp] theorem flagOf_subFlags (a b r sr : Byte) (g : Flag) :
    flagOf (subFlags a b r sr) g =
      match g with
      | .h => (!bitAt a 3 && bitAt b 3) || (bitAt b 3 && bitAt r 3) || (bitAt r 3 && !bitAt a 3)
      | .v => (bitAt a 7 && !bitAt b 7 && !bitAt r 7) || (!bitAt a 7 && bitAt b 7 && bitAt r 7)
      | .c => (!bitAt a 7 && bitAt b 7) || (bitAt b 7 && bitAt r 7) || (bitAt r 7 && !bitAt a 7)
      | .n => bitAt r 7
      | .s => bitAt r 7 ^^
        ((bitAt a 7 && !bitAt b 7 && !bitAt r 7) || (!bitAt a 7 && bitAt b 7 && bitAt r 7))
      | .z => flagOf sr .z
      | .t => flagOf sr .t
      | .i => flagOf sr .i := by
  cases g <;> simp [subFlags]

@[simp] theorem flagOf_logicFlags (r sr : Byte) (g : Flag) :
    flagOf (logicFlags r sr) g =
      match g with
      | .v => false
      | .n => bitAt r 7
      | .s => bitAt r 7
      | .z => r == 0#8
      | g => flagOf sr g := by
  cases g <;> simp [logicFlags]

@[simp] theorem flagOf_adiwFlags (a r : Word) (sr : Byte) (g : Flag) :
    flagOf (adiwFlags a r sr) g =
      match g with
      | .v => !a.getLsbD 15 && r.getLsbD 15
      | .n => r.getLsbD 15
      | .s => r.getLsbD 15 ^^ (!a.getLsbD 15 && r.getLsbD 15)
      | .z => r == 0#16
      | .c => !r.getLsbD 15 && a.getLsbD 15
      | g => flagOf sr g := by
  cases g <;> simp [adiwFlags]

@[simp] theorem flagOf_sbiwFlags (a r : Word) (sr : Byte) (g : Flag) :
    flagOf (sbiwFlags a r sr) g =
      match g with
      | .v => a.getLsbD 15 && !r.getLsbD 15
      | .n => r.getLsbD 15
      | .s => r.getLsbD 15 ^^ (a.getLsbD 15 && !r.getLsbD 15)
      | .z => r == 0#16
      | .c => r.getLsbD 15 && !a.getLsbD 15
      | g => flagOf sr g := by
  cases g <;> simp [sbiwFlags]

@[simp] theorem flagOf_comFlags (r sr : Byte) (g : Flag) :
    flagOf (comFlags r sr) g =
      match g with
      | .v => false
      | .n => bitAt r 7
      | .s => bitAt r 7
      | .z => r == 0#8
      | .c => true
      | g => flagOf sr g := by
  cases g <;> simp [comFlags]

@[simp] theorem flagOf_negFlags (a r sr : Byte) (g : Flag) :
    flagOf (negFlags a r sr) g =
      match g with
      | .h => bitAt r 3 || bitAt a 3
      | .v => r == 0x80#8
      | .n => bitAt r 7
      | .s => bitAt r 7 ^^ (r == 0x80#8)
      | .z => r == 0#8
      | .c => r != 0#8
      | .t => flagOf sr .t
      | .i => flagOf sr .i := by
  cases g <;> simp [negFlags]

@[simp] theorem flagOf_incFlags (r sr : Byte) (g : Flag) :
    flagOf (incFlags r sr) g =
      match g with
      | .v => r == 0x80#8
      | .n => bitAt r 7
      | .s => bitAt r 7 ^^ (r == 0x80#8)
      | .z => r == 0#8
      | g => flagOf sr g := by
  cases g <;> simp [incFlags]

@[simp] theorem flagOf_decFlags (r sr : Byte) (g : Flag) :
    flagOf (decFlags r sr) g =
      match g with
      | .v => r == 0x7F#8
      | .n => bitAt r 7
      | .s => bitAt r 7 ^^ (r == 0x7F#8)
      | .z => r == 0#8
      | g => flagOf sr g := by
  cases g <;> simp [decFlags]

@[simp] theorem flagOf_mulFlags (p r : Word) (sr : Byte) (g : Flag) :
    flagOf (mulFlags p r sr) g =
      match g with
      | .c => p.getLsbD 15
      | .z => r == 0#16
      | g => flagOf sr g := by
  cases g <;> simp [mulFlags]

@[simp] theorem flagOf_shiftRightFlags (a r sr : Byte) (g : Flag) :
    flagOf (shiftRightFlags a r sr) g =
      match g with
      | .c => bitAt a 0
      | .n => bitAt r 7
      | .z => r == 0#8
      | .v => bitAt r 7 ^^ bitAt a 0
      | .s => bitAt r 7 ^^ (bitAt r 7 ^^ bitAt a 0)
      | g => flagOf sr g := by
  cases g <;> simp [shiftRightFlags]

@[simp] theorem flagOf_shiftLeftFlags (a r sr : Byte) (g : Flag) :
    flagOf (shiftLeftFlags a r sr) g =
      match g with
      | .c => bitAt a 7
      | .h => bitAt a 3
      | .n => bitAt r 7
      | .z => r == 0#8
      | .v => bitAt r 7 ^^ bitAt a 7
      | .s => bitAt r 7 ^^ (bitAt r 7 ^^ bitAt a 7)
      | g => flagOf sr g := by
  cases g <;> simp [shiftLeftFlags]

/-! ## Bits as arithmetic -/

/-- The top bit of a byte. -/
theorem bitAt_seven (x : Byte) : bitAt x 7 = decide (128 ≤ x.toNat) := by
  simp only [bitAt, BitVec.getLsbD, Nat.testBit, Nat.shiftRight_eq_div_pow]
  have := x.isLt
  rcases Nat.lt_or_ge x.toNat 128 with h | h
  · rw [Nat.div_eq_of_lt (by omega)]; simp; omega
  · have : x.toNat / 2 ^ 7 = 1 := by omega
    rw [this]; simp; omega

/-- The top bit of a byte's low nibble. -/
theorem bitAt_three (x : Byte) : bitAt x 3 = decide (8 ≤ x.toNat % 16) := by
  simp only [bitAt, BitVec.getLsbD, Nat.testBit, Nat.shiftRight_eq_div_pow, Nat.one_and_eq_mod_two]
  rcases Nat.lt_or_ge (x.toNat % 16) 8 with h | h
  · have : x.toNat / 2 ^ 3 % 2 = 0 := by omega
    rw [this]; simp; omega
  · have : x.toNat / 2 ^ 3 % 2 = 1 := by omega
    rw [this]; simp; omega

/-- The top bit of a word. -/
theorem word_top (x : Word) : x.getLsbD 15 = decide (32768 ≤ x.toNat) := by
  simp only [BitVec.getLsbD, Nat.testBit, Nat.shiftRight_eq_div_pow]
  have := x.isLt
  rcases Nat.lt_or_ge x.toNat 32768 with h | h
  · rw [Nat.div_eq_of_lt (by omega)]; simp; omega
  · have : x.toNat / 2 ^ 15 = 1 := by omega
    rw [this]; simp; omega

end Sys2Proof.Machine
end

