-- ==== Sys2Proof/Laws/Memory.lean ====
section
/-! SUPPORT. The laws of the two memories: a read after a write, and that every memory operation keeps the
canonical form. -/

namespace Sys2Proof.Machine

theorem Memory.read_write (m : Memory) (a b : Nat) (v : Byte) :
    Memory.read (Memory.write m a v) b = if a = b then some v else Memory.read m b := by
  induction m with
  | nil => simp [Memory.write, Memory.read]
  | cons cell m ih =>
    obtain ⟨c, w⟩ := cell
    simp only [Memory.write]
    split
    · simp [Memory.read]
    · split
      · subst_vars; simp only [Memory.read]; split <;> simp_all
      · simp only [Memory.read, ih]; grind

theorem Memory.rising_mono {lo lo' hi : Nat} {m : Memory} (h : Memory.rising lo' hi m = true)
    (hlo : lo ≤ lo') : Memory.rising lo hi m = true := by
  cases m with
  | nil => rfl
  | cons cell m =>
    simp only [Memory.rising, Bool.and_eq_true, decide_eq_true_eq] at h ⊢
    exact ⟨⟨by omega, h.1.2⟩, h.2⟩

theorem Memory.rising_write {lo hi a : Nat} {m : Memory} (v : Byte) (h : Memory.rising lo hi m = true)
    (h1 : lo ≤ a) (h2 : a < hi) : Memory.rising lo hi (Memory.write m a v) = true := by
  induction m generalizing lo with
  | nil => simp [Memory.write, Memory.rising, h1, h2]
  | cons cell m ih =>
    obtain ⟨c, w⟩ := cell
    simp only [Memory.rising, Bool.and_eq_true, decide_eq_true_eq] at h
    simp only [Memory.write]
    split
    · simp only [Memory.rising, Bool.and_eq_true, decide_eq_true_eq]
      exact ⟨⟨h1, h2⟩, ⟨by omega, h.1.2⟩, h.2⟩
    · split
      · subst_vars; simp only [Memory.rising, Bool.and_eq_true, decide_eq_true_eq]; exact h
      · simp only [Memory.rising, Bool.and_eq_true, decide_eq_true_eq]
        exact ⟨h.1, ih h.2 (by omega)⟩

theorem Memory.rising_erase {lo hi : Nat} {m : Memory} (a : Nat) (h : Memory.rising lo hi m = true) :
    Memory.rising lo hi (Memory.erase m a) = true := by
  induction m generalizing lo with
  | nil => rfl
  | cons cell m ih =>
    obtain ⟨c, w⟩ := cell
    simp only [Memory.rising, Bool.and_eq_true, decide_eq_true_eq] at h
    simp only [Memory.erase]
    split
    · exact Memory.rising_mono h.2 (by omega)
    · simp only [Memory.rising, Bool.and_eq_true, decide_eq_true_eq]
      exact ⟨h.1, ih h.2⟩

/-- Nothing is listed below the first address. -/
theorem Memory.read_below {lo hi b : Nat} {m : Memory} (h : Memory.rising lo hi m = true) (hb : b < lo) :
    Memory.read m b = none := by
  induction m generalizing lo with
  | nil => rfl
  | cons cell m ih =>
    obtain ⟨c, w⟩ := cell
    simp only [Memory.rising, Bool.and_eq_true, decide_eq_true_eq] at h
    simp only [Memory.read]
    rw [if_neg (by omega)]
    exact ih h.2 (by omega)

theorem Memory.read_erase {lo hi : Nat} {m : Memory} (a b : Nat) (h : Memory.rising lo hi m = true) :
    Memory.read (Memory.erase m a) b = if a = b then none else Memory.read m b := by
  induction m generalizing lo with
  | nil => simp [Memory.erase, Memory.read]
  | cons cell m ih =>
    obtain ⟨c, w⟩ := cell
    simp only [Memory.rising, Bool.and_eq_true, decide_eq_true_eq] at h
    simp only [Memory.erase]
    split
    · subst_vars
      split
      · subst_vars; exact Memory.read_below h.2 (by omega)
      · simp only [Memory.read]; rw [if_neg (by assumption)]
    · simp only [Memory.read, ih h.2]; grind

/-- An SRAM byte reads as last written, every other as before. -/
theorem sramByte_write (m : Memory) (a b : Nat) (v : Byte) :
    sramByte (Memory.write m a v) b = if a = b then v else sramByte m b := by
  simp only [sramByte, Memory.read_write]; split <;> rfl

/-- A write within SRAM keeps the canonical form. -/
theorem Memory.wf_write {c : Config} {m : Memory} {a : Nat} (v : Byte) (h : Memory.wf c m)
    (h1 : c.ramStart ≤ a) (h2 : a ≤ c.ramEnd) : Memory.wf c (Memory.write m a v) :=
  Memory.rising_write v h h1 (by omega)

theorem Memory.all_write {m : Memory} {p : Host.Cell → Bool} {a : Nat} {v : Byte} (h : m.all p = true)
    (hp : p (a, v) = true) : (Memory.write m a v).all p = true := by
  induction m with
  | nil => simp [Memory.write, hp]
  | cons cell m ih =>
    obtain ⟨c, w⟩ := cell
    simp only [List.all_cons, Bool.and_eq_true] at h
    simp only [Memory.write]
    split
    · simp [hp, h.1, h.2]
    · split
      · subst_vars; simp [hp, h.2]
      · simp [h.1, ih h.2]

theorem Memory.all_erase {m : Memory} {p : Host.Cell → Bool} {a : Nat} (h : m.all p = true) :
    (Memory.erase m a).all p = true := by
  induction m with
  | nil => rfl
  | cons cell m ih =>
    obtain ⟨c, w⟩ := cell
    simp only [List.all_cons, Bool.and_eq_true] at h
    simp only [Memory.erase]
    split
    · exact h.2
    · simp [h.1, ih h.2]

/-- Putting a byte into program memory keeps the canonical form. -/
theorem flashWf_put {c : Config} {m : Memory} {b : Nat} {v : Byte} (h : Memory.flashWf c m)
    (hb : b < 2 * c.flashWords) : Memory.flashWf c (flashPut m b v) := by
  simp only [flashPut]
  split
  · exact ⟨Memory.rising_erase b h.1, Memory.all_erase h.2⟩
  · exact ⟨Memory.rising_write v h.1 (by omega) hb, Memory.all_write h.2 (by simpa using ‹_›)⟩

/-- A program byte reads as put, every other as before. -/
theorem flashByte_put {c : Config} {m : Memory} (a b : Nat) (v : Byte) (h : Memory.flashWf c m) :
    flashByte (flashPut m a v) b = if a = b then v else flashByte m b := by
  simp only [flashByte, flashPut]
  split
  · rw [Memory.read_erase a b h.1]; split <;> simp_all
  · rw [Memory.read_write]; split <;> simp

/-- The self-programming controller's changes keep the canonical form (log 9). -/
theorem flashWf_applyEdits {c : Config} (edits : List (Nat × Byte)) {m : Memory} (h : Memory.flashWf c m) :
    Memory.flashWf c (applyEdits c edits m) := by
  induction edits generalizing m with
  | nil => exact h
  | cons e edits ih =>
    obtain ⟨b, v⟩ := e
    simp only [applyEdits]
    split
    · exact ih (flashWf_put h ‹_›)
    · exact ih h

/-- Both memories after reset are in canonical form, for every device. -/
theorem wf_powerOn (c : Config) (r : Vector Byte 32) :
    Memory.wf c (State.powerOn c r).sram ∧ Memory.flashWf c (State.powerOn c r).flash :=
  ⟨rfl, rfl, rfl⟩

end Sys2Proof.Machine
end

