-- ==== Sys2Proof/Laws/State.lean ====
section
/-! SUPPORT. One lemma per field per update of the state, true by rfl: no proof unfolds a record update. -/

namespace Sys2Proof.Machine

variable (s : State)

@[simp] theorem writeReg_cfg (d : Reg) (v : Byte) : (writeReg d v s).cfg = s.cfg := rfl
@[simp] theorem writeReg_regs (d : Reg) (v : Byte) : (writeReg d v s).regs = s.regs.set d.val v := rfl
@[simp] theorem writeReg_pc (d : Reg) (v : Byte) : (writeReg d v s).pc = s.pc := rfl
@[simp] theorem writeReg_sreg (d : Reg) (v : Byte) : (writeReg d v s).sreg = s.sreg := rfl
@[simp] theorem writeReg_sp (d : Reg) (v : Byte) : (writeReg d v s).sp = s.sp := rfl
@[simp] theorem writeReg_rampz (d : Reg) (v : Byte) : (writeReg d v s).rampz = s.rampz := rfl
@[simp] theorem writeReg_eind (d : Reg) (v : Byte) : (writeReg d v s).eind = s.eind := rfl
@[simp] theorem writeReg_sram (d : Reg) (v : Byte) : (writeReg d v s).sram = s.sram := rfl
@[simp] theorem writeReg_flash (d : Reg) (v : Byte) : (writeReg d v s).flash = s.flash := rfl
@[simp] theorem writeReg_mode (d : Reg) (v : Byte) : (writeReg d v s).mode = s.mode := rfl
@[simp] theorem writeReg_irqInhibit (d : Reg) (v : Byte) : (writeReg d v s).irqInhibit = s.irqInhibit := rfl
@[simp] theorem writeReg_requests (d : Reg) (v : Byte) : (writeReg d v s).requests = s.requests := rfl
@[simp] theorem writeReg_ioTrace (d : Reg) (v : Byte) : (writeReg d v s).ioTrace = s.ioTrace := rfl
@[simp] theorem writeReg_ioInputs (d : Reg) (v : Byte) : (writeReg d v s).ioInputs = s.ioInputs := rfl
@[simp] theorem writeReg_env (d : Reg) (v : Byte) : (writeReg d v s).env = s.env := rfl

@[simp] theorem writePair_cfg (d : Reg) (v : Word) : (writePair d v s).cfg = s.cfg := rfl
@[simp] theorem writePair_regs (d : Reg) (v : Word) : (writePair d v s).regs =
    (s.regs.set d.val (loByte v)).set (d + 1).val (hiByte v) := rfl
@[simp] theorem writePair_pc (d : Reg) (v : Word) : (writePair d v s).pc = s.pc := rfl
@[simp] theorem writePair_sreg (d : Reg) (v : Word) : (writePair d v s).sreg = s.sreg := rfl
@[simp] theorem writePair_sp (d : Reg) (v : Word) : (writePair d v s).sp = s.sp := rfl
@[simp] theorem writePair_rampz (d : Reg) (v : Word) : (writePair d v s).rampz = s.rampz := rfl
@[simp] theorem writePair_eind (d : Reg) (v : Word) : (writePair d v s).eind = s.eind := rfl
@[simp] theorem writePair_sram (d : Reg) (v : Word) : (writePair d v s).sram = s.sram := rfl
@[simp] theorem writePair_flash (d : Reg) (v : Word) : (writePair d v s).flash = s.flash := rfl
@[simp] theorem writePair_mode (d : Reg) (v : Word) : (writePair d v s).mode = s.mode := rfl
@[simp] theorem writePair_irqInhibit (d : Reg) (v : Word) : (writePair d v s).irqInhibit =
    s.irqInhibit := rfl
@[simp] theorem writePair_requests (d : Reg) (v : Word) : (writePair d v s).requests = s.requests := rfl
@[simp] theorem writePair_ioTrace (d : Reg) (v : Word) : (writePair d v s).ioTrace = s.ioTrace := rfl
@[simp] theorem writePair_ioInputs (d : Reg) (v : Word) : (writePair d v s).ioInputs = s.ioInputs := rfl
@[simp] theorem writePair_env (d : Reg) (v : Word) : (writePair d v s).env = s.env := rfl

@[simp] theorem writePointer_cfg (p : Pointer) (v : Word) : (writePointer p v s).cfg = s.cfg := rfl
@[simp] theorem writePointer_regs (p : Pointer) (v : Word) : (writePointer p v s).regs =
    (s.regs.set p.low.val (loByte v)).set (p.low + 1).val (hiByte v) := rfl
@[simp] theorem writePointer_pc (p : Pointer) (v : Word) : (writePointer p v s).pc = s.pc := rfl
@[simp] theorem writePointer_sreg (p : Pointer) (v : Word) : (writePointer p v s).sreg = s.sreg := rfl
@[simp] theorem writePointer_sp (p : Pointer) (v : Word) : (writePointer p v s).sp = s.sp := rfl
@[simp] theorem writePointer_rampz (p : Pointer) (v : Word) : (writePointer p v s).rampz = s.rampz := rfl
@[simp] theorem writePointer_eind (p : Pointer) (v : Word) : (writePointer p v s).eind = s.eind := rfl
@[simp] theorem writePointer_sram (p : Pointer) (v : Word) : (writePointer p v s).sram = s.sram := rfl
@[simp] theorem writePointer_flash (p : Pointer) (v : Word) : (writePointer p v s).flash = s.flash := rfl
@[simp] theorem writePointer_mode (p : Pointer) (v : Word) : (writePointer p v s).mode = s.mode := rfl
@[simp] theorem writePointer_irqInhibit (p : Pointer) (v : Word) : (writePointer p v s).irqInhibit =
    s.irqInhibit := rfl
@[simp] theorem writePointer_requests (p : Pointer) (v : Word) : (writePointer p v s).requests =
    s.requests := rfl
@[simp] theorem writePointer_ioTrace (p : Pointer) (v : Word) : (writePointer p v s).ioTrace =
    s.ioTrace := rfl
@[simp] theorem writePointer_ioInputs (p : Pointer) (v : Word) : (writePointer p v s).ioInputs =
    s.ioInputs := rfl
@[simp] theorem writePointer_env (p : Pointer) (v : Word) : (writePointer p v s).env = s.env := rfl

@[simp] theorem mapSreg_cfg (f : Byte → Byte) : (mapSreg f s).cfg = s.cfg := rfl
@[simp] theorem mapSreg_regs (f : Byte → Byte) : (mapSreg f s).regs = s.regs := rfl
@[simp] theorem mapSreg_pc (f : Byte → Byte) : (mapSreg f s).pc = s.pc := rfl
@[simp] theorem mapSreg_sreg (f : Byte → Byte) : (mapSreg f s).sreg = f s.sreg := rfl
@[simp] theorem mapSreg_sp (f : Byte → Byte) : (mapSreg f s).sp = s.sp := rfl
@[simp] theorem mapSreg_rampz (f : Byte → Byte) : (mapSreg f s).rampz = s.rampz := rfl
@[simp] theorem mapSreg_eind (f : Byte → Byte) : (mapSreg f s).eind = s.eind := rfl
@[simp] theorem mapSreg_sram (f : Byte → Byte) : (mapSreg f s).sram = s.sram := rfl
@[simp] theorem mapSreg_flash (f : Byte → Byte) : (mapSreg f s).flash = s.flash := rfl
@[simp] theorem mapSreg_mode (f : Byte → Byte) : (mapSreg f s).mode = s.mode := rfl
@[simp] theorem mapSreg_irqInhibit (f : Byte → Byte) : (mapSreg f s).irqInhibit = s.irqInhibit := rfl
@[simp] theorem mapSreg_requests (f : Byte → Byte) : (mapSreg f s).requests = s.requests := rfl
@[simp] theorem mapSreg_ioTrace (f : Byte → Byte) : (mapSreg f s).ioTrace = s.ioTrace := rfl
@[simp] theorem mapSreg_ioInputs (f : Byte → Byte) : (mapSreg f s).ioInputs = s.ioInputs := rfl
@[simp] theorem mapSreg_env (f : Byte → Byte) : (mapSreg f s).env = s.env := rfl

@[simp] theorem setPc_cfg (t : Nat) : (setPc t s).cfg = s.cfg := rfl
@[simp] theorem setPc_regs (t : Nat) : (setPc t s).regs = s.regs := rfl
@[simp] theorem setPc_pc (t : Nat) : (setPc t s).pc = BitVec.ofNat 22 (t % 2 ^ s.cfg.pcBits) := rfl
@[simp] theorem setPc_sreg (t : Nat) : (setPc t s).sreg = s.sreg := rfl
@[simp] theorem setPc_sp (t : Nat) : (setPc t s).sp = s.sp := rfl
@[simp] theorem setPc_rampz (t : Nat) : (setPc t s).rampz = s.rampz := rfl
@[simp] theorem setPc_eind (t : Nat) : (setPc t s).eind = s.eind := rfl
@[simp] theorem setPc_sram (t : Nat) : (setPc t s).sram = s.sram := rfl
@[simp] theorem setPc_flash (t : Nat) : (setPc t s).flash = s.flash := rfl
@[simp] theorem setPc_mode (t : Nat) : (setPc t s).mode = s.mode := rfl
@[simp] theorem setPc_irqInhibit (t : Nat) : (setPc t s).irqInhibit = s.irqInhibit := rfl
@[simp] theorem setPc_requests (t : Nat) : (setPc t s).requests = s.requests := rfl
@[simp] theorem setPc_ioTrace (t : Nat) : (setPc t s).ioTrace = s.ioTrace := rfl
@[simp] theorem setPc_ioInputs (t : Nat) : (setPc t s).ioInputs = s.ioInputs := rfl
@[simp] theorem setPc_env (t : Nat) : (setPc t s).env = s.env := rfl

@[simp] theorem advance_cfg (n : Nat) : (advance n s).cfg = s.cfg := rfl
@[simp] theorem advance_regs (n : Nat) : (advance n s).regs = s.regs := rfl
@[simp] theorem advance_pc (n : Nat) : (advance n s).pc =
    BitVec.ofNat 22 ((s.pc.toNat + n) % 2 ^ s.cfg.pcBits) := rfl
@[simp] theorem advance_sreg (n : Nat) : (advance n s).sreg = s.sreg := rfl
@[simp] theorem advance_sp (n : Nat) : (advance n s).sp = s.sp := rfl
@[simp] theorem advance_rampz (n : Nat) : (advance n s).rampz = s.rampz := rfl
@[simp] theorem advance_eind (n : Nat) : (advance n s).eind = s.eind := rfl
@[simp] theorem advance_sram (n : Nat) : (advance n s).sram = s.sram := rfl
@[simp] theorem advance_flash (n : Nat) : (advance n s).flash = s.flash := rfl
@[simp] theorem advance_mode (n : Nat) : (advance n s).mode = s.mode := rfl
@[simp] theorem advance_irqInhibit (n : Nat) : (advance n s).irqInhibit = s.irqInhibit := rfl
@[simp] theorem advance_requests (n : Nat) : (advance n s).requests = s.requests := rfl
@[simp] theorem advance_ioTrace (n : Nat) : (advance n s).ioTrace = s.ioTrace := rfl
@[simp] theorem advance_ioInputs (n : Nat) : (advance n s).ioInputs = s.ioInputs := rfl
@[simp] theorem advance_env (n : Nat) : (advance n s).env = s.env := rfl

@[simp] theorem writeSp_cfg (v : Word) : (writeSp v s).cfg = s.cfg := rfl
@[simp] theorem writeSp_regs (v : Word) : (writeSp v s).regs = s.regs := rfl
@[simp] theorem writeSp_pc (v : Word) : (writeSp v s).pc = s.pc := rfl
@[simp] theorem writeSp_sreg (v : Word) : (writeSp v s).sreg = s.sreg := rfl
@[simp] theorem writeSp_sp (v : Word) : (writeSp v s).sp = v &&& s.cfg.spMask := rfl
@[simp] theorem writeSp_rampz (v : Word) : (writeSp v s).rampz = s.rampz := rfl
@[simp] theorem writeSp_eind (v : Word) : (writeSp v s).eind = s.eind := rfl
@[simp] theorem writeSp_sram (v : Word) : (writeSp v s).sram = s.sram := rfl
@[simp] theorem writeSp_flash (v : Word) : (writeSp v s).flash = s.flash := rfl
@[simp] theorem writeSp_mode (v : Word) : (writeSp v s).mode = s.mode := rfl
@[simp] theorem writeSp_irqInhibit (v : Word) : (writeSp v s).irqInhibit = s.irqInhibit := rfl
@[simp] theorem writeSp_requests (v : Word) : (writeSp v s).requests = s.requests := rfl
@[simp] theorem writeSp_ioTrace (v : Word) : (writeSp v s).ioTrace = s.ioTrace := rfl
@[simp] theorem writeSp_ioInputs (v : Word) : (writeSp v s).ioInputs = s.ioInputs := rfl
@[simp] theorem writeSp_env (v : Word) : (writeSp v s).env = s.env := rfl

@[simp] theorem writeRampz_cfg (v : Byte) : (writeRampz v s).cfg = s.cfg := rfl
@[simp] theorem writeRampz_regs (v : Byte) : (writeRampz v s).regs = s.regs := rfl
@[simp] theorem writeRampz_pc (v : Byte) : (writeRampz v s).pc = s.pc := rfl
@[simp] theorem writeRampz_sreg (v : Byte) : (writeRampz v s).sreg = s.sreg := rfl
@[simp] theorem writeRampz_sp (v : Byte) : (writeRampz v s).sp = s.sp := rfl
@[simp] theorem writeRampz_rampz (v : Byte) : (writeRampz v s).rampz = v &&& s.cfg.rampzMask := rfl
@[simp] theorem writeRampz_eind (v : Byte) : (writeRampz v s).eind = s.eind := rfl
@[simp] theorem writeRampz_sram (v : Byte) : (writeRampz v s).sram = s.sram := rfl
@[simp] theorem writeRampz_flash (v : Byte) : (writeRampz v s).flash = s.flash := rfl
@[simp] theorem writeRampz_mode (v : Byte) : (writeRampz v s).mode = s.mode := rfl
@[simp] theorem writeRampz_irqInhibit (v : Byte) : (writeRampz v s).irqInhibit = s.irqInhibit := rfl
@[simp] theorem writeRampz_requests (v : Byte) : (writeRampz v s).requests = s.requests := rfl
@[simp] theorem writeRampz_ioTrace (v : Byte) : (writeRampz v s).ioTrace = s.ioTrace := rfl
@[simp] theorem writeRampz_ioInputs (v : Byte) : (writeRampz v s).ioInputs = s.ioInputs := rfl
@[simp] theorem writeRampz_env (v : Byte) : (writeRampz v s).env = s.env := rfl

@[simp] theorem writeEind_cfg (v : Byte) : (writeEind v s).cfg = s.cfg := rfl
@[simp] theorem writeEind_regs (v : Byte) : (writeEind v s).regs = s.regs := rfl
@[simp] theorem writeEind_pc (v : Byte) : (writeEind v s).pc = s.pc := rfl
@[simp] theorem writeEind_sreg (v : Byte) : (writeEind v s).sreg = s.sreg := rfl
@[simp] theorem writeEind_sp (v : Byte) : (writeEind v s).sp = s.sp := rfl
@[simp] theorem writeEind_rampz (v : Byte) : (writeEind v s).rampz = s.rampz := rfl
@[simp] theorem writeEind_eind (v : Byte) : (writeEind v s).eind = v &&& s.cfg.eindMask := rfl
@[simp] theorem writeEind_sram (v : Byte) : (writeEind v s).sram = s.sram := rfl
@[simp] theorem writeEind_flash (v : Byte) : (writeEind v s).flash = s.flash := rfl
@[simp] theorem writeEind_mode (v : Byte) : (writeEind v s).mode = s.mode := rfl
@[simp] theorem writeEind_irqInhibit (v : Byte) : (writeEind v s).irqInhibit = s.irqInhibit := rfl
@[simp] theorem writeEind_requests (v : Byte) : (writeEind v s).requests = s.requests := rfl
@[simp] theorem writeEind_ioTrace (v : Byte) : (writeEind v s).ioTrace = s.ioTrace := rfl
@[simp] theorem writeEind_ioInputs (v : Byte) : (writeEind v s).ioInputs = s.ioInputs := rfl
@[simp] theorem writeEind_env (v : Byte) : (writeEind v s).env = s.env := rfl

@[simp] theorem tellDevices_cfg (ev : IoEvent) : (tellDevices ev s).cfg = s.cfg := rfl
@[simp] theorem tellDevices_regs (ev : IoEvent) : (tellDevices ev s).regs = s.regs := rfl
@[simp] theorem tellDevices_pc (ev : IoEvent) : (tellDevices ev s).pc = s.pc := rfl
@[simp] theorem tellDevices_sreg (ev : IoEvent) : (tellDevices ev s).sreg = s.sreg := rfl
@[simp] theorem tellDevices_sp (ev : IoEvent) : (tellDevices ev s).sp = s.sp := rfl
@[simp] theorem tellDevices_rampz (ev : IoEvent) : (tellDevices ev s).rampz = s.rampz := rfl
@[simp] theorem tellDevices_eind (ev : IoEvent) : (tellDevices ev s).eind = s.eind := rfl
@[simp] theorem tellDevices_sram (ev : IoEvent) : (tellDevices ev s).sram = s.sram := rfl
@[simp] theorem tellDevices_flash (ev : IoEvent) : (tellDevices ev s).flash = s.flash := rfl
@[simp] theorem tellDevices_mode (ev : IoEvent) : (tellDevices ev s).mode = s.mode := rfl
@[simp] theorem tellDevices_irqInhibit (ev : IoEvent) : (tellDevices ev s).irqInhibit = s.irqInhibit := rfl
@[simp] theorem tellDevices_requests (ev : IoEvent) : (tellDevices ev s).requests = s.requests := rfl
@[simp] theorem tellDevices_ioTrace (ev : IoEvent) : (tellDevices ev s).ioTrace = ev :: s.ioTrace := rfl
@[simp] theorem tellDevices_ioInputs (ev : IoEvent) : (tellDevices ev s).ioInputs = s.ioInputs := rfl
@[simp] theorem tellDevices_env (ev : IoEvent) : (tellDevices ev s).env = s.env := rfl

@[simp] theorem writeExtendedZ_cfg (a : Nat) : (writeExtendedZ a s).cfg = s.cfg := rfl
@[simp] theorem writeExtendedZ_regs (a : Nat) :
    (writeExtendedZ a s).regs =
    (s.regs.set 30 (loByte (BitVec.ofNat 16 a))).set 31 (hiByte (BitVec.ofNat 16 a)) := rfl
@[simp] theorem writeExtendedZ_pc (a : Nat) : (writeExtendedZ a s).pc = s.pc := rfl
@[simp] theorem writeExtendedZ_sreg (a : Nat) : (writeExtendedZ a s).sreg = s.sreg := rfl
@[simp] theorem writeExtendedZ_sp (a : Nat) : (writeExtendedZ a s).sp = s.sp := rfl
@[simp] theorem writeExtendedZ_rampz (a : Nat) : (writeExtendedZ a s).rampz =
    BitVec.ofNat 8 (a / 65536) &&& s.cfg.rampzMask := rfl
@[simp] theorem writeExtendedZ_eind (a : Nat) : (writeExtendedZ a s).eind = s.eind := rfl
@[simp] theorem writeExtendedZ_sram (a : Nat) : (writeExtendedZ a s).sram = s.sram := rfl
@[simp] theorem writeExtendedZ_flash (a : Nat) : (writeExtendedZ a s).flash = s.flash := rfl
@[simp] theorem writeExtendedZ_mode (a : Nat) : (writeExtendedZ a s).mode = s.mode := rfl
@[simp] theorem writeExtendedZ_irqInhibit (a : Nat) : (writeExtendedZ a s).irqInhibit = s.irqInhibit := rfl
@[simp] theorem writeExtendedZ_requests (a : Nat) : (writeExtendedZ a s).requests = s.requests := rfl
@[simp] theorem writeExtendedZ_ioTrace (a : Nat) : (writeExtendedZ a s).ioTrace = s.ioTrace := rfl
@[simp] theorem writeExtendedZ_ioInputs (a : Nat) : (writeExtendedZ a s).ioInputs = s.ioInputs := rfl
@[simp] theorem writeExtendedZ_env (a : Nat) : (writeExtendedZ a s).env = s.env := rfl

@[simp] theorem writeProduct_cfg (p r : Word) : (writeProduct p r s).cfg = s.cfg := rfl
@[simp] theorem writeProduct_regs (p r : Word) : (writeProduct p r s).regs =
    (s.regs.set 0 (loByte r)).set 1 (hiByte r) := rfl
@[simp] theorem writeProduct_pc (p r : Word) : (writeProduct p r s).pc = s.pc := rfl
@[simp] theorem writeProduct_sreg (p r : Word) : (writeProduct p r s).sreg = mulFlags p r s.sreg := rfl
@[simp] theorem writeProduct_sp (p r : Word) : (writeProduct p r s).sp = s.sp := rfl
@[simp] theorem writeProduct_rampz (p r : Word) : (writeProduct p r s).rampz = s.rampz := rfl
@[simp] theorem writeProduct_eind (p r : Word) : (writeProduct p r s).eind = s.eind := rfl
@[simp] theorem writeProduct_sram (p r : Word) : (writeProduct p r s).sram = s.sram := rfl
@[simp] theorem writeProduct_flash (p r : Word) : (writeProduct p r s).flash = s.flash := rfl
@[simp] theorem writeProduct_mode (p r : Word) : (writeProduct p r s).mode = s.mode := rfl
@[simp] theorem writeProduct_irqInhibit (p r : Word) : (writeProduct p r s).irqInhibit = s.irqInhibit := rfl
@[simp] theorem writeProduct_requests (p r : Word) : (writeProduct p r s).requests = s.requests := rfl
@[simp] theorem writeProduct_ioTrace (p r : Word) : (writeProduct p r s).ioTrace = s.ioTrace := rfl
@[simp] theorem writeProduct_ioInputs (p r : Word) : (writeProduct p r s).ioInputs = s.ioInputs := rfl
@[simp] theorem writeProduct_env (p r : Word) : (writeProduct p r s).env = s.env := rfl

@[simp] theorem enableInterrupts_cfg : (enableInterrupts s).cfg = s.cfg := rfl
@[simp] theorem enableInterrupts_regs : (enableInterrupts s).regs = s.regs := rfl
@[simp] theorem enableInterrupts_pc : (enableInterrupts s).pc = s.pc := rfl
@[simp] theorem enableInterrupts_sreg : (enableInterrupts s).sreg = putFlag s.sreg .i true := rfl
@[simp] theorem enableInterrupts_sp : (enableInterrupts s).sp = s.sp := rfl
@[simp] theorem enableInterrupts_rampz : (enableInterrupts s).rampz = s.rampz := rfl
@[simp] theorem enableInterrupts_eind : (enableInterrupts s).eind = s.eind := rfl
@[simp] theorem enableInterrupts_sram : (enableInterrupts s).sram = s.sram := rfl
@[simp] theorem enableInterrupts_flash : (enableInterrupts s).flash = s.flash := rfl
@[simp] theorem enableInterrupts_mode : (enableInterrupts s).mode = s.mode := rfl
@[simp] theorem enableInterrupts_irqInhibit : (enableInterrupts s).irqInhibit =
    (s.irqInhibit || !readFlag s .i) := rfl
@[simp] theorem enableInterrupts_requests : (enableInterrupts s).requests = s.requests := rfl
@[simp] theorem enableInterrupts_ioTrace : (enableInterrupts s).ioTrace = s.ioTrace := rfl
@[simp] theorem enableInterrupts_ioInputs : (enableInterrupts s).ioInputs = s.ioInputs := rfl
@[simp] theorem enableInterrupts_env : (enableInterrupts s).env = s.env := rfl

@[simp] theorem ackRequest_cfg (n : Nat) : (ackRequest n s).cfg = s.cfg := rfl
@[simp] theorem ackRequest_regs (n : Nat) : (ackRequest n s).regs = s.regs := rfl
@[simp] theorem ackRequest_pc (n : Nat) : (ackRequest n s).pc = s.pc := rfl
@[simp] theorem ackRequest_sreg (n : Nat) : (ackRequest n s).sreg = s.sreg := rfl
@[simp] theorem ackRequest_sp (n : Nat) : (ackRequest n s).sp = s.sp := rfl
@[simp] theorem ackRequest_rampz (n : Nat) : (ackRequest n s).rampz = s.rampz := rfl
@[simp] theorem ackRequest_eind (n : Nat) : (ackRequest n s).eind = s.eind := rfl
@[simp] theorem ackRequest_sram (n : Nat) : (ackRequest n s).sram = s.sram := rfl
@[simp] theorem ackRequest_flash (n : Nat) : (ackRequest n s).flash = s.flash := rfl
@[simp] theorem ackRequest_mode (n : Nat) : (ackRequest n s).mode = s.mode := rfl
@[simp] theorem ackRequest_irqInhibit (n : Nat) : (ackRequest n s).irqInhibit = s.irqInhibit := rfl
@[simp] theorem ackRequest_requests (n : Nat) : (ackRequest n s).requests =
    if s.cfg.clearedOnEntry.contains n then s.requests.erase n else s.requests := rfl
@[simp] theorem ackRequest_ioTrace (n : Nat) : (ackRequest n s).ioTrace = IoEvent.ack n :: s.ioTrace := rfl
@[simp] theorem ackRequest_ioInputs (n : Nat) : (ackRequest n s).ioInputs = s.ioInputs := rfl
@[simp] theorem ackRequest_env (n : Nat) : (ackRequest n s).env = s.env := rfl

@[simp] theorem resetEvent_cfg : (resetEvent s).cfg = s.cfg := rfl
@[simp] theorem resetEvent_regs : (resetEvent s).regs = s.regs := rfl
@[simp] theorem resetEvent_pc : (resetEvent s).pc =
    BitVec.ofNat 22 (s.cfg.resetPc % 2 ^ s.cfg.pcBits) := rfl
@[simp] theorem resetEvent_sreg : (resetEvent s).sreg = 0#8 := rfl
@[simp] theorem resetEvent_sp : (resetEvent s).sp = s.cfg.spReset &&& s.cfg.spMask := rfl
@[simp] theorem resetEvent_rampz : (resetEvent s).rampz = 0#8 := rfl
@[simp] theorem resetEvent_eind : (resetEvent s).eind = 0#8 := rfl
@[simp] theorem resetEvent_sram : (resetEvent s).sram = s.sram := rfl
@[simp] theorem resetEvent_flash : (resetEvent s).flash = s.flash := rfl
@[simp] theorem resetEvent_mode : (resetEvent s).mode = .running := rfl
@[simp] theorem resetEvent_irqInhibit : (resetEvent s).irqInhibit = false := rfl
@[simp] theorem resetEvent_requests : (resetEvent s).requests = [] := rfl
@[simp] theorem resetEvent_ioTrace : (resetEvent s).ioTrace = IoEvent.reset :: s.ioTrace := rfl
@[simp] theorem resetEvent_ioInputs : (resetEvent s).ioInputs = s.ioInputs := rfl
@[simp] theorem resetEvent_env : (resetEvent s).env = s.env := rfl

/-! ## Reads through an update of another field -/

@[simp] theorem readFlag_writeReg (d : Reg) (v : Byte) (g : Flag) :
    readFlag (writeReg d v s) g = readFlag s g := rfl
@[simp] theorem readSp_writeReg (d : Reg) (v : Byte) :
    readSp (writeReg d v s) = readSp s := rfl
@[simp] theorem readRampz_writeReg (d : Reg) (v : Byte) :
    readRampz (writeReg d v s) = readRampz s := rfl
@[simp] theorem readEind_writeReg (d : Reg) (v : Byte) :
    readEind (writeReg d v s) = readEind s := rfl

@[simp] theorem readFlag_writePair (d : Reg) (v : Word) (g : Flag) :
    readFlag (writePair d v s) g = readFlag s g := rfl
@[simp] theorem readSp_writePair (d : Reg) (v : Word) :
    readSp (writePair d v s) = readSp s := rfl
@[simp] theorem readRampz_writePair (d : Reg) (v : Word) :
    readRampz (writePair d v s) = readRampz s := rfl
@[simp] theorem readEind_writePair (d : Reg) (v : Word) :
    readEind (writePair d v s) = readEind s := rfl

@[simp] theorem readFlag_writePointer (p : Pointer) (v : Word) (g : Flag) :
    readFlag (writePointer p v s) g = readFlag s g := rfl
@[simp] theorem readSp_writePointer (p : Pointer) (v : Word) :
    readSp (writePointer p v s) = readSp s := rfl
@[simp] theorem readRampz_writePointer (p : Pointer) (v : Word) :
    readRampz (writePointer p v s) = readRampz s := rfl
@[simp] theorem readEind_writePointer (p : Pointer) (v : Word) :
    readEind (writePointer p v s) = readEind s := rfl

@[simp] theorem readReg_mapSreg (f : Byte → Byte) (e : Reg) :
    readReg (mapSreg f s) e = readReg s e := rfl
@[simp] theorem readPair_mapSreg (f : Byte → Byte) (e : Reg) :
    readPair (mapSreg f s) e = readPair s e := rfl
@[simp] theorem readPointer_mapSreg (f : Byte → Byte) (q : Pointer) :
    readPointer (mapSreg f s) q = readPointer s q := rfl
@[simp] theorem readSp_mapSreg (f : Byte → Byte) :
    readSp (mapSreg f s) = readSp s := rfl
@[simp] theorem readRampz_mapSreg (f : Byte → Byte) :
    readRampz (mapSreg f s) = readRampz s := rfl
@[simp] theorem readEind_mapSreg (f : Byte → Byte) :
    readEind (mapSreg f s) = readEind s := rfl

@[simp] theorem readReg_setPc (t : Nat) (e : Reg) :
    readReg (setPc t s) e = readReg s e := rfl
@[simp] theorem readPair_setPc (t : Nat) (e : Reg) :
    readPair (setPc t s) e = readPair s e := rfl
@[simp] theorem readPointer_setPc (t : Nat) (q : Pointer) :
    readPointer (setPc t s) q = readPointer s q := rfl
@[simp] theorem readFlag_setPc (t : Nat) (g : Flag) :
    readFlag (setPc t s) g = readFlag s g := rfl
@[simp] theorem readSp_setPc (t : Nat) :
    readSp (setPc t s) = readSp s := rfl
@[simp] theorem readRampz_setPc (t : Nat) :
    readRampz (setPc t s) = readRampz s := rfl
@[simp] theorem readEind_setPc (t : Nat) :
    readEind (setPc t s) = readEind s := rfl

@[simp] theorem readReg_advance (n : Nat) (e : Reg) :
    readReg (advance n s) e = readReg s e := rfl
@[simp] theorem readPair_advance (n : Nat) (e : Reg) :
    readPair (advance n s) e = readPair s e := rfl
@[simp] theorem readPointer_advance (n : Nat) (q : Pointer) :
    readPointer (advance n s) q = readPointer s q := rfl
@[simp] theorem readFlag_advance (n : Nat) (g : Flag) :
    readFlag (advance n s) g = readFlag s g := rfl
@[simp] theorem readSp_advance (n : Nat) :
    readSp (advance n s) = readSp s := rfl
@[simp] theorem readRampz_advance (n : Nat) :
    readRampz (advance n s) = readRampz s := rfl
@[simp] theorem readEind_advance (n : Nat) :
    readEind (advance n s) = readEind s := rfl

@[simp] theorem readReg_writeSp (v : Word) (e : Reg) :
    readReg (writeSp v s) e = readReg s e := rfl
@[simp] theorem readPair_writeSp (v : Word) (e : Reg) :
    readPair (writeSp v s) e = readPair s e := rfl
@[simp] theorem readPointer_writeSp (v : Word) (q : Pointer) :
    readPointer (writeSp v s) q = readPointer s q := rfl
@[simp] theorem readFlag_writeSp (v : Word) (g : Flag) :
    readFlag (writeSp v s) g = readFlag s g := rfl
@[simp] theorem readRampz_writeSp (v : Word) :
    readRampz (writeSp v s) = readRampz s := rfl
@[simp] theorem readEind_writeSp (v : Word) :
    readEind (writeSp v s) = readEind s := rfl

@[simp] theorem readReg_writeRampz (v : Byte) (e : Reg) :
    readReg (writeRampz v s) e = readReg s e := rfl
@[simp] theorem readPair_writeRampz (v : Byte) (e : Reg) :
    readPair (writeRampz v s) e = readPair s e := rfl
@[simp] theorem readPointer_writeRampz (v : Byte) (q : Pointer) :
    readPointer (writeRampz v s) q = readPointer s q := rfl
@[simp] theorem readFlag_writeRampz (v : Byte) (g : Flag) :
    readFlag (writeRampz v s) g = readFlag s g := rfl
@[simp] theorem readSp_writeRampz (v : Byte) :
    readSp (writeRampz v s) = readSp s := rfl
@[simp] theorem readEind_writeRampz (v : Byte) :
    readEind (writeRampz v s) = readEind s := rfl

@[simp] theorem readReg_writeEind (v : Byte) (e : Reg) :
    readReg (writeEind v s) e = readReg s e := rfl
@[simp] theorem readPair_writeEind (v : Byte) (e : Reg) :
    readPair (writeEind v s) e = readPair s e := rfl
@[simp] theorem readPointer_writeEind (v : Byte) (q : Pointer) :
    readPointer (writeEind v s) q = readPointer s q := rfl
@[simp] theorem readFlag_writeEind (v : Byte) (g : Flag) :
    readFlag (writeEind v s) g = readFlag s g := rfl
@[simp] theorem readSp_writeEind (v : Byte) :
    readSp (writeEind v s) = readSp s := rfl
@[simp] theorem readRampz_writeEind (v : Byte) :
    readRampz (writeEind v s) = readRampz s := rfl

@[simp] theorem readReg_tellDevices (ev : IoEvent) (e : Reg) :
    readReg (tellDevices ev s) e = readReg s e := rfl
@[simp] theorem readPair_tellDevices (ev : IoEvent) (e : Reg) :
    readPair (tellDevices ev s) e = readPair s e := rfl
@[simp] theorem readPointer_tellDevices (ev : IoEvent) (q : Pointer) :
    readPointer (tellDevices ev s) q = readPointer s q := rfl
@[simp] theorem readFlag_tellDevices (ev : IoEvent) (g : Flag) :
    readFlag (tellDevices ev s) g = readFlag s g := rfl
@[simp] theorem readSp_tellDevices (ev : IoEvent) :
    readSp (tellDevices ev s) = readSp s := rfl
@[simp] theorem readRampz_tellDevices (ev : IoEvent) :
    readRampz (tellDevices ev s) = readRampz s := rfl
@[simp] theorem readEind_tellDevices (ev : IoEvent) :
    readEind (tellDevices ev s) = readEind s := rfl

@[simp] theorem readFlag_writeExtendedZ (a : Nat) (g : Flag) :
    readFlag (writeExtendedZ a s) g = readFlag s g := rfl
@[simp] theorem readSp_writeExtendedZ (a : Nat) :
    readSp (writeExtendedZ a s) = readSp s := rfl
@[simp] theorem readEind_writeExtendedZ (a : Nat) :
    readEind (writeExtendedZ a s) = readEind s := rfl

@[simp] theorem readSp_writeProduct (p r : Word) :
    readSp (writeProduct p r s) = readSp s := rfl
@[simp] theorem readRampz_writeProduct (p r : Word) :
    readRampz (writeProduct p r s) = readRampz s := rfl
@[simp] theorem readEind_writeProduct (p r : Word) :
    readEind (writeProduct p r s) = readEind s := rfl

@[simp] theorem readReg_enableInterrupts (e : Reg) :
    readReg (enableInterrupts s) e = readReg s e := rfl
@[simp] theorem readPair_enableInterrupts (e : Reg) :
    readPair (enableInterrupts s) e = readPair s e := rfl
@[simp] theorem readPointer_enableInterrupts (q : Pointer) :
    readPointer (enableInterrupts s) q = readPointer s q := rfl
@[simp] theorem readSp_enableInterrupts :
    readSp (enableInterrupts s) = readSp s := rfl
@[simp] theorem readRampz_enableInterrupts :
    readRampz (enableInterrupts s) = readRampz s := rfl
@[simp] theorem readEind_enableInterrupts :
    readEind (enableInterrupts s) = readEind s := rfl

@[simp] theorem readReg_ackRequest (n : Nat) (e : Reg) :
    readReg (ackRequest n s) e = readReg s e := rfl
@[simp] theorem readPair_ackRequest (n : Nat) (e : Reg) :
    readPair (ackRequest n s) e = readPair s e := rfl
@[simp] theorem readPointer_ackRequest (n : Nat) (q : Pointer) :
    readPointer (ackRequest n s) q = readPointer s q := rfl
@[simp] theorem readFlag_ackRequest (n : Nat) (g : Flag) :
    readFlag (ackRequest n s) g = readFlag s g := rfl
@[simp] theorem readSp_ackRequest (n : Nat) :
    readSp (ackRequest n s) = readSp s := rfl
@[simp] theorem readRampz_ackRequest (n : Nat) :
    readRampz (ackRequest n s) = readRampz s := rfl
@[simp] theorem readEind_ackRequest (n : Nat) :
    readEind (ackRequest n s) = readEind s := rfl

@[simp] theorem readReg_resetEvent (e : Reg) :
    readReg (resetEvent s) e = readReg s e := rfl
@[simp] theorem readPair_resetEvent (e : Reg) :
    readPair (resetEvent s) e = readPair s e := rfl
@[simp] theorem readPointer_resetEvent (q : Pointer) :
    readPointer (resetEvent s) q = readPointer s q := rfl

end Sys2Proof.Machine
end

