-- ==== Sys2Proof/Laws/Ops.lean ====
section
/-! SUPPORT. For each shared operation, what it can do, said once: proofs cite these and do not unfold the
operation. -/

namespace Sys2Proof.Machine

/-! ## Reads depend only on the field they read -/

theorem readReg_congr {s t : State} (h : t.regs = s.regs) (d : Reg) : readReg t d = readReg s d := by
  simp only [readReg, h]

theorem readPair_congr {s t : State} (h : t.regs = s.regs) (d : Reg) : readPair t d = readPair s d := by
  simp only [readPair, readReg, h]

theorem readPointer_congr {s t : State} (h : t.regs = s.regs) (p : Pointer) :
    readPointer t p = readPointer s p := readPair_congr h _

theorem readFlag_congr {s t : State} (h : t.sreg = s.sreg) (f : Flag) : readFlag t f = readFlag s f := by
  simp only [readFlag, h]

/-- States that agree on every register, through `readReg`, agree on the register file. -/
theorem regs_ext {s t : State} (h : ∀ d, readReg t d = readReg s d) : t.regs = s.regs := by
  apply Vector.ext
  intro i hi
  exact h ⟨i, hi⟩

/-- States that agree on every flag agree on `SREG`. -/
theorem sreg_eq_of_flags {s t : State} (h : ∀ f, readFlag t f = readFlag s f) : t.sreg = s.sreg :=
  sreg_ext h

@[simp] theorem readFlag_mapSreg (f : Byte → Byte) (s : State) (g : Flag) :
    readFlag (mapSreg f s) g = flagOf (f s.sreg) g := rfl

/-! ## Registers and pairs -/

/-- A register reads as last written, every other as before. -/
@[simp] theorem readReg_writeReg (d e : Reg) (v : Byte) (s : State) :
    readReg (writeReg d v s) e = if e = d then v else readReg s e := by
  simp only [readReg, writeReg_regs, Vector.getElem_set]
  by_cases h : d.val = e.val
  · have : e = d := Fin.ext h.symm
    simp [h, this]
  · have : ¬ e = d := fun he => h (by rw [he])
    simp [h, this]

theorem reg_ne_next (d : Reg) : d ≠ d + 1 := by
  revert d; decide

/-- A pair's registers read as the bytes last written, every other as before (R23). -/
@[simp] theorem readReg_writePair (d e : Reg) (v : Word) (s : State) :
    readReg (writePair d v s) e =
      if e = d + 1 then hiByte v else if e = d then loByte v else readReg s e := by
  simp [writePair]

@[simp] theorem hiByte_append_loByte (v : Word) : hiByte v ++ loByte v = v := by
  apply BitVec.eq_of_getLsbD_eq
  intro i hi
  simp only [hiByte, loByte, BitVec.getLsbD_append, BitVec.getLsbD_extractLsb']
  by_cases h : i < 8
  · simp [h]
  · have : 8 + (i - 8) = i := by omega
    have h8 : i - 8 < 8 := by omega
    simp [h, this, h8]

@[simp] theorem hiByte_append (h l : Byte) : hiByte (h ++ l) = h := by
  apply BitVec.eq_of_getLsbD_eq
  intro i hi
  rw [hiByte, BitVec.getLsbD_extractLsb', BitVec.getLsbD_append]
  have : 8 + i - 8 = i := by omega
  simp [hi, this]

@[simp] theorem loByte_append (h l : Byte) : loByte (h ++ l) = l := by
  apply BitVec.eq_of_getLsbD_eq
  intro i hi
  rw [loByte, BitVec.getLsbD_extractLsb', BitVec.getLsbD_append]
  simp [hi]

theorem toNat_append (h l : Byte) : (h ++ l : Word).toNat = h.toNat * 256 + l.toNat := by
  rw [BitVec.toNat_append, ← Nat.shiftLeft_add_eq_or_of_lt (by simpa using l.isLt), Nat.shiftLeft_eq]

@[simp] theorem readPair_writePair (d : Reg) (v : Word) (s : State) : readPair (writePair d v s) d = v := by
  have := (reg_ne_next d)
  simp [readPair, this]

@[simp] theorem readPointer_writePointer (p : Pointer) (v : Word) (s : State) :
    readPointer (writePointer p v s) p = v := readPair_writePair _ _ _

theorem readReg_writePointer (p : Pointer) (e : Reg) (v : Word) (s : State) :
    readReg (writePointer p v s) e =
      if e = p.low + 1 then hiByte v else if e = p.low then loByte v else readReg s e :=
  readReg_writePair _ _ _ _

/-! ## The data space -/

theorem regionOf_register {c : Config} {a : Word} (h : a.toNat < 0x20) :
    regionOf c a = .register (Fin.ofNat 32 a.toNat) := by simp [regionOf, h]

theorem regionOf_io {c : Config} {a : Word} (h1 : 0x20 ≤ a.toNat) (h2 : a.toNat < 0x60) :
    regionOf c a = ioRegion c (a.toNat - 0x20) := by
  simp only [regionOf]; rw [if_neg (by omega), if_pos h2]

theorem regionOf_extended {c : Config} {a : Word} (h1 : 0x60 ≤ a.toNat) (h2 : a.toNat < c.ramStart) :
    regionOf c a = .device (a.toNat - 0x20) := by
  simp only [regionOf]; rw [if_neg (by omega), if_neg (by omega), if_pos h2]

theorem regionOf_sram {c : Config} {a : Word} (h0 : 0x60 ≤ a.toNat) (h1 : c.ramStart ≤ a.toNat)
    (h2 : a.toNat ≤ c.ramEnd) : regionOf c a = .sram := by
  simp only [regionOf]; rw [if_neg (by omega), if_neg (by omega), if_neg (by omega), if_pos h2]

theorem regionOf_absent {c : Config} {a : Word} (hc : c.wf) (h : c.ramEnd < a.toNat) :
    regionOf c a = .absent := by
  obtain ⟨-, -, -, ⟨h1, h2, -⟩, -⟩ := hc
  simp only [regionOf]
  rw [if_neg (by omega), if_neg (by omega), if_neg (by omega), if_neg (by omega)]

theorem ioRegion_ne_absent (c : Config) (io : Nat) : ioRegion c io ≠ .absent ∧ ioRegion c io ≠ .sram := by
  unfold ioRegion
  repeat' split
  all_goals exact ⟨nofun, nofun⟩

/-- Every address up to `RAM_END` exists. -/
theorem regionOf_exists {c : Config} {a : Word} (h : a.toNat ≤ c.ramEnd) : regionOf c a ≠ .absent := by
  unfold regionOf
  repeat' split
  all_goals first | exact (ioRegion_ne_absent c _).1 | simp

/-- An SRAM address lies within SRAM. -/
theorem regionOf_eq_sram {c : Config} {a : Word} (h : regionOf c a = .sram) :
    c.ramStart ≤ a.toNat ∧ a.toNat ≤ c.ramEnd := by
  unfold regionOf at h
  repeat' split at h
  all_goals first | exact absurd h (ioRegion_ne_absent c _).2 | (simp at h; done) | omega

/-- `SREG`, `RAMPZ` and `EIND` are reached only in the I/O space, and the last two only where they exist. -/
theorem regionOf_eq_rampz {c : Config} {a : Word} (h : regionOf c a = .rampz) : c.hasRampz = true := by
  unfold regionOf ioRegion at h
  repeat' split at h
  all_goals simp_all

theorem regionOf_eq_eind {c : Config} {a : Word} (h : regionOf c a = .eind) : c.hasEind = true := by
  unfold regionOf ioRegion at h
  repeat' split at h
  all_goals simp_all

/-- A device read changes only the exchange and the script of answers (R58). -/
theorem ioRead_frame (io : Nat) (s : State) :
    (ioRead io s).2 = { s with
      ioTrace := .read io (ioRead io s).1 :: s.ioTrace, ioInputs := s.ioInputs.tail } := by
  unfold ioRead
  cases h : s.ioInputs <;> simp_all

/-- A data-space read that succeeds changes nothing but, at a device, the exchange (R53, R59). -/
theorem memRead_frame {a : Word} {s t : State} {v : Byte} (h : memRead a s = .ok (v, t)) :
    t = { s with ioTrace := t.ioTrace, ioInputs := t.ioInputs } := by
  unfold memRead at h
  split at h
  all_goals first
    | (cases h; rfl)
    | (simp only [Except.ok.injEq] at h
       have := congrArg Prod.snd h
       rw [ioRead_frame] at this
       simp only at this
       rw [← this])
    | cases h

/-- A data-space read faults exactly where nothing exists (R52). -/
theorem memRead_error {a : Word} {s : State} {f : Fault} (h : memRead a s = .error f) :
    regionOf s.cfg a = .absent ∧ f = .badAddress a := by
  unfold memRead at h
  split at h <;> simp_all

theorem memRead_ok {a : Word} {s : State} (h : regionOf s.cfg a ≠ .absent) :
    ∃ v t, memRead a s = .ok (v, t) := by
  cases hr : memRead a s with
  | ok x => exact ⟨x.1, x.2, rfl⟩
  | error f => exact absurd (memRead_error hr).1 h

/-- A data-space write faults exactly where nothing exists (R52). -/
theorem memWrite_error {a : Word} {v : Byte} {s : State} {f : Fault} (h : memWrite a v s = .error f) :
    regionOf s.cfg a = .absent ∧ f = .badAddress a := by
  unfold memWrite at h
  split at h <;> simp_all

theorem memWrite_ok {a : Word} {v : Byte} {s : State} (h : regionOf s.cfg a ≠ .absent) :
    ∃ t, memWrite a v s = .ok t := by
  cases hr : memWrite a v s with
  | ok x => exact ⟨x, rfl⟩
  | error f => exact absurd (memWrite_error hr).1 h

/-- All a data-space write can do, by what the address reaches (R52, R54, R55). -/
theorem memWrite_cases {a : Word} {v : Byte} {s t : State} (h : memWrite a v s = .ok t) :
    (∃ d, regionOf s.cfg a = .register d ∧ t = writeReg d v s) ∨
    (regionOf s.cfg a = .sreg ∧ t = mapSreg (fun _ => v) s) ∨
    (regionOf s.cfg a = .sph ∧ t = writeSp (v ++ loByte (readSp s)) s) ∨
    (regionOf s.cfg a = .spl ∧ t = writeSp (hiByte (readSp s) ++ v) s) ∨
    (regionOf s.cfg a = .eind ∧ t = writeEind v s) ∨
    (regionOf s.cfg a = .rampz ∧ t = writeRampz v s) ∨
    (∃ io, regionOf s.cfg a = .device io ∧ t = tellDevices (.write io v) s) ∨
    (regionOf s.cfg a = .sram ∧ t = { s with sram := Memory.write s.sram a.toNat v }) := by
  unfold memWrite at h
  split at h <;> rename_i hr <;> simp only [Except.ok.injEq, reduceCtorEq] at h <;> subst h <;>
    simp [hr, mapSreg]

/-- What no data-space write changes. -/
theorem memWrite_frame {a : Word} {v : Byte} {s t : State} (h : memWrite a v s = .ok t) :
    t = { s with
      regs := t.regs, sreg := t.sreg, sp := t.sp, rampz := t.rampz, eind := t.eind,
      sram := t.sram, ioTrace := t.ioTrace } := by
  obtain ⟨d, -, rfl⟩ | ⟨-, rfl⟩ | ⟨-, rfl⟩ | ⟨-, rfl⟩ | ⟨-, rfl⟩ | ⟨-, rfl⟩ | ⟨io, -, rfl⟩ | ⟨-, rfl⟩ :=
    memWrite_cases h <;> rfl

/-! ## Program memory -/

/-- `PmWord` answers a word or `Fault.BadFetch`, by the address alone (R61). -/
theorem pmWord_cases (w : Nat) (s : State) :
    (w % 2 ^ s.cfg.pcBits < s.cfg.flashWords ∧
      pmWord w s = .ok (flashWord s.flash (w % 2 ^ s.cfg.pcBits))) ∨
    (s.cfg.flashWords ≤ w % 2 ^ s.cfg.pcBits ∧
      pmWord w s = .error (.badFetch (w % 2 ^ s.cfg.pcBits))) := by
  unfold pmWord
  split
  · exact .inl ⟨‹_›, rfl⟩
  · exact .inr ⟨by omega, rfl⟩

/-- `PmByte` answers a byte or `Fault.BadFetch`, by the address alone (R62). -/
theorem pmByte_cases (b : Nat) (s : State) :
    (b / 2 < s.cfg.flashWords ∧ pmByte b s = .ok (flashByte s.flash b)) ∨
    (s.cfg.flashWords ≤ b / 2 ∧ pmByte b s = .error (.badFetch (b / 2))) := by
  unfold pmByte
  split
  · exact .inl ⟨‹_›, rfl⟩
  · exact .inr ⟨by omega, rfl⟩

/-! ## The stack -/

/-- A push is a write at `SP` and then a decrement (R64). -/
theorem push_cases {v : Byte} {s t : State} (h : push v s = .ok t) :
    ∃ u, memWrite (readSp s) v s = .ok u ∧ t = writeSp (readSp u - 1#16) u := by
  unfold push at h
  split at h
  · exact ⟨_, by assumption, by simpa using h.symm⟩
  · cases h

theorem push_error {v : Byte} {s : State} {f : Fault} (h : push v s = .error f) :
    regionOf s.cfg (readSp s) = .absent ∧ f = .badAddress (readSp s) := by
  unfold push at h
  split at h
  · cases h
  · rename_i hw
    have := memWrite_error hw
    simp_all

/-- A push onto SRAM writes one byte and lowers `SP` (R64). -/
theorem push_sram {v : Byte} {s : State} (h : regionOf s.cfg (readSp s) = .sram) :
    push v s = .ok (writeSp (readSp s - 1#16)
      { s with sram := Memory.write s.sram (readSp s).toNat v }) := by
  simp only [push, memWrite, h]
  rfl

/-- A pop that succeeds raises `SP`, answers the byte there, and changes nothing else but, at a device,
the exchange (R64). -/
theorem pop_frame {s t : State} {v : Byte} (h : pop s = .ok (v, t)) :
    t = { s with
      sp := (readSp s + 1#16) &&& s.cfg.spMask, ioTrace := t.ioTrace, ioInputs := t.ioInputs } := by
  have := memRead_frame h
  simpa [writeSp] using this

/-- What no `PushPC` changes. -/
theorem pushPc_frame {n : Nat} {s t : State} (h : pushPc n s = .ok t) :
    t = { s with
      regs := t.regs, sreg := t.sreg, sp := t.sp, rampz := t.rampz, eind := t.eind,
      sram := t.sram, ioTrace := t.ioTrace } := by
  have key : ∀ {v : Byte} {s t : State}, push v s = .ok t → t = { s with
      regs := t.regs, sreg := t.sreg, sp := t.sp, rampz := t.rampz, eind := t.eind,
      sram := t.sram, ioTrace := t.ioTrace } := by
    intro v s t h
    obtain ⟨u, hu, rfl⟩ := push_cases h
    have := memWrite_frame hu
    rw [this]; rfl
  simp only [pushPc] at h
  split at h
  · cases h
  · rename_i s1 h1
    split at h
    · cases h
    · rename_i s2 h2
      have k1 := key h1
      have k2 := key h2
      split at h
      · have k3 := key h
        rw [k3, k2, k1]
      · simp only [Except.ok.injEq] at h
        subst h
        rw [k2, k1]

/-- What no `PopPC` changes. -/
theorem popPc_frame {n : Nat} {s t : State} (h : popPc s = .ok (n, t)) :
    t = { s with sp := t.sp, ioTrace := t.ioTrace, ioInputs := t.ioInputs } := by
  have key : ∀ {v : Byte} {s t : State}, popHigh s = .ok (v, t) →
      t = { s with sp := t.sp, ioTrace := t.ioTrace, ioInputs := t.ioInputs } := by
    intro v s t h
    unfold popHigh at h
    split at h
    · rw [pop_frame h]
    · cases h; rfl
  unfold popPc at h
  split at h
  · cases h
  · rename_i hi s1 h1
    split at h
    · cases h
    · rename_i mid s2 h2
      split at h
      · cases h
      · rename_i lo s3 h3
        cases h
        rw [pop_frame h3, pop_frame h2, key h1]

/-! ## Skips, groups, interrupts -/

/-- All a skip can do (R143). -/
theorem skipIf_cases {cond : Bool} {s : State} {o : Result} (h : skipIf cond s = o) :
    (cond = false ∧ o = .next (advance 1 s)) ∨
    (∃ w, cond = true ∧ pmWord (s.pc.toNat + 1) s = .ok w ∧ o = .next (advance (skipWords w) s)) ∨
    (∃ f, cond = true ∧ pmWord (s.pc.toNat + 1) s = .error f ∧ o = .fault f) := by
  subst h
  unfold skipIf
  cases cond <;> split <;> simp_all

/-- An instruction of a group the device lacks faults; otherwise it runs (R88). -/
theorem ifHas_cases (g : Group) (i : Instr) (run : State → Result) (s : State) :
    (s.cfg.has g = true ∧ ifHas g i run s = run s) ∨
    (s.cfg.has g = false ∧ ifHas g i run s = .fault (.unimplemented g (firstWord i) s.pc)) := by
  unfold ifHas
  cases h : s.cfg.has g <;> simp

/-- What it takes to have a displacement form (R217, R220; log 24). -/
theorem Config.hasDisplaced_iff (c : Config) (q : BitVec 6) :
    c.hasDisplaced q = true ↔
      c.has .lddStd = true ∨ (q = 0#6 ∧ c.has .ldStVariants = true ∧ c.plainWithoutLdd = true) := by
  simp [Config.hasDisplaced, and_assoc]

/-- A displacement form runs where the device has it, and faults where it does not (R88). -/
theorem ifHasDisplaced_cases (q : BitVec 6) (i : Instr) (run : State → Result) (s : State) :
    (s.cfg.hasDisplaced q = true ∧ ifHasDisplaced q i run s = run s) ∨
    (s.cfg.hasDisplaced q = false ∧
      ifHasDisplaced q i run s = .fault (.unimplemented .lddStd (firstWord i) s.pc)) := by
  unfold ifHasDisplaced
  cases h : s.cfg.hasDisplaced q <;> simp

/-- The pending vector is the lowest requested (R303, R306). -/
theorem pendingRequest_some {s : State} {n : Nat} (h : pendingRequest s = some n) :
    1 ≤ n ∧ n < s.cfg.nVectors ∧ n ∈ s.requests ∧
      ∀ m, 1 ≤ m → m < s.cfg.nVectors → m ∈ s.requests → n ≤ m := by
  unfold pendingRequest at h
  rw [List.find?_range_eq_some] at h
  obtain ⟨h1, h2, h3⟩ := h
  simp at h1 h2 h3
  refine ⟨h1.1, h2, h1.2, fun m hm1 hm2 hm3 => ?_⟩
  by_contra hlt
  have := h3 m (by omega)
  rcases this with h | h
  · omega
  · exact h hm3

/-- An interrupt is taken only with I = 1, `irq_inhibit` = 0 and in a mode other than stopped (R305). -/
theorem interruptToTake_some {s : State} {n : Nat} (h : interruptToTake s = some n) :
    s.mode ≠ .stopped ∧ readFlag s .i = true ∧ s.irqInhibit = false ∧ pendingRequest s = some n := by
  unfold interruptToTake at h
  split at h
  · cases h
  · rename_i hc
    simp only [not_or, Bool.not_eq_false, Bool.not_eq_true] at hc
    exact ⟨hc.1, hc.2.1, hc.2.2, h⟩

/-- All an interrupt entry can do (R307). -/
theorem enterInterrupt_cases {n : Nat} {s t : State} (h : enterInterrupt n s = .next t) :
    ∃ u, pushPc s.pc.toNat s = .ok u ∧
      t = ackRequest n (setPc (vectorAddress s.cfg n)
        { mapSreg (fun sr => putFlag sr .i false) u with mode := .running }) := by
  unfold enterInterrupt at h
  split at h
  · exact ⟨_, by assumption, by simpa using h.symm⟩
  · cases h

end Sys2Proof.Machine
end

