-- ==== Sys2Proof/Laws/Invariant.lean ====
section
/-! SUPPORT. Each shared operation keeps the invariant of the machine's states. -/

namespace Sys2Proof.Machine

theorem Config.pow_pcBits_le {c : Config} (h : c.wf) : 2 ^ c.pcBits ≤ 2 ^ 22 :=
  Nat.pow_le_pow_right (by decide) h.1.2

/-- A value reduced modulo 2^`PC_BITS` fits the program counter. -/
theorem toNat_pc {c : Config} (h : c.wf) (t : Nat) :
    (BitVec.ofNat 22 (t % 2 ^ c.pcBits)).toNat = t % 2 ^ c.pcBits := by
  rw [BitVec.toNat_ofNat]
  exact Nat.mod_eq_of_lt (lt_of_lt_of_le (Nat.mod_lt _ (by positivity)) (Config.pow_pcBits_le h))

theorem and_mask_idem {n : Nat} (v m : BitVec n) : v &&& m &&& m = v &&& m := by
  rw [BitVec.and_assoc, BitVec.and_self]

theorem State.Inv.writeReg {s : State} (h : s.Inv) (d : Reg) (v : Byte) : (writeReg d v s).Inv :=
  ⟨h.1, h.2, h.3, h.4, h.5, h.6, h.7, h.8, h.9, h.10⟩

theorem State.Inv.writePair {s : State} (h : s.Inv) (d : Reg) (v : Word) : (writePair d v s).Inv :=
  ⟨h.1, h.2, h.3, h.4, h.5, h.6, h.7, h.8, h.9, h.10⟩

theorem State.Inv.writePointer {s : State} (h : s.Inv) (p : Pointer) (v : Word) : (writePointer p v s).Inv :=
  ⟨h.1, h.2, h.3, h.4, h.5, h.6, h.7, h.8, h.9, h.10⟩

theorem State.Inv.mapSreg {s : State} (h : s.Inv) (f : Byte → Byte) : (mapSreg f s).Inv :=
  ⟨h.1, h.2, h.3, h.4, h.5, h.6, h.7, h.8, h.9, h.10⟩

theorem State.Inv.tellDevices {s : State} (h : s.Inv) (e : IoEvent) : (tellDevices e s).Inv :=
  ⟨h.1, h.2, h.3, h.4, h.5, h.6, h.7, h.8, h.9, h.10⟩

theorem State.Inv.withMode {s : State} (h : s.Inv) (m : Mode) : ({ s with mode := m } : State).Inv :=
  ⟨h.1, h.2, h.3, h.4, h.5, h.6, h.7, h.8, h.9, h.10⟩

theorem State.Inv.withInhibit {s : State} (h : s.Inv) (b : Bool) : ({ s with irqInhibit := b } : State).Inv :=
  ⟨h.1, h.2, h.3, h.4, h.5, h.6, h.7, h.8, h.9, h.10⟩

theorem State.Inv.enableInterrupts {s : State} (h : s.Inv) : (enableInterrupts s).Inv :=
  ⟨h.1, h.2, h.3, h.4, h.5, h.6, h.7, h.8, h.9, h.10⟩

theorem State.Inv.writeProduct {s : State} (h : s.Inv) (p r : Word) : (writeProduct p r s).Inv :=
  ⟨h.1, h.2, h.3, h.4, h.5, h.6, h.7, h.8, h.9, h.10⟩

theorem State.Inv.setPc {s : State} (h : s.Inv) (t : Nat) : (setPc t s).Inv := by
  refine ⟨h.1, ?_, h.3, h.4, h.5, h.6, h.7, h.8, h.9, h.10⟩
  simp only [setPc_pc, setPc_cfg]
  rw [toNat_pc h.cfg]
  exact Nat.mod_lt _ (by positivity)

theorem State.Inv.advance {s : State} (h : s.Inv) (n : Nat) : (advance n s).Inv := h.setPc _

theorem State.Inv.writeSp {s : State} (h : s.Inv) (v : Word) : (writeSp v s).Inv :=
  ⟨h.1, h.2, and_mask_idem _ _, h.4, h.5, h.6, h.7, h.8, h.9, h.10⟩

theorem State.Inv.writeRampz {s : State} (h : s.Inv) (v : Byte) (hc : s.cfg.hasRampz = true) :
    (writeRampz v s).Inv :=
  ⟨h.1, h.2, h.3, and_mask_idem _ _, h.5, fun hn => by simp_all, h.7, h.8, h.9, h.10⟩

theorem State.Inv.writeEind {s : State} (h : s.Inv) (v : Byte) (hc : s.cfg.hasEind = true) :
    (writeEind v s).Inv :=
  ⟨h.1, h.2, h.3, h.4, and_mask_idem _ _, h.6, fun hn => by simp_all, h.8, h.9, h.10⟩

theorem State.Inv.writeExtendedZ {s : State} (h : s.Inv) (a : Nat) (hc : s.cfg.hasRampz = true) :
    (writeExtendedZ a s).Inv := (h.writePointer .z _).writeRampz _ hc

theorem State.Inv.memRead {s t : State} {a : Word} {v : Byte} (h : s.Inv) (hr : memRead a s = .ok (v, t)) :
    t.Inv := by
  rw [memRead_frame hr]
  exact ⟨h.1, h.2, h.3, h.4, h.5, h.6, h.7, h.8, h.9, h.10⟩

theorem State.Inv.memWrite {s t : State} {a : Word} {v : Byte} (h : s.Inv) (hw : memWrite a v s = .ok t) :
    t.Inv := by
  obtain ⟨d, -, rfl⟩ | ⟨-, rfl⟩ | ⟨-, rfl⟩ | ⟨-, rfl⟩ | ⟨hr, rfl⟩ | ⟨hr, rfl⟩ | ⟨io, -, rfl⟩ | ⟨hr, rfl⟩ :=
    memWrite_cases hw
  · exact h.writeReg _ _
  · exact h.mapSreg _
  · exact h.writeSp _
  · exact h.writeSp _
  · exact h.writeEind _ (regionOf_eq_eind hr)
  · exact h.writeRampz _ (regionOf_eq_rampz hr)
  · exact h.tellDevices _
  · exact ⟨h.1, h.2, h.3, h.4, h.5, h.6, h.7,
      Memory.wf_write _ h.sram (regionOf_eq_sram hr).1 (regionOf_eq_sram hr).2, h.9, h.10⟩

theorem State.Inv.push {s t : State} {v : Byte} (h : s.Inv) (hp : push v s = .ok t) : t.Inv := by
  obtain ⟨u, hu, rfl⟩ := push_cases hp
  exact (h.memWrite hu).writeSp _

theorem State.Inv.pop {s t : State} {v : Byte} (h : s.Inv) (hp : pop s = .ok (v, t)) : t.Inv :=
  (h.writeSp _).memRead hp

theorem State.Inv.pushPc {s t : State} {n : Nat} (h : s.Inv) (hp : pushPc n s = .ok t) : t.Inv := by
  simp only [Machine.pushPc] at hp
  split at hp
  · cases hp
  · split at hp
    · cases hp
    · split at hp
      · exact ((h.push ‹_›).push ‹_›).push hp
      · simp only [Except.ok.injEq] at hp
        subst hp
        exact (h.push ‹_›).push ‹_›

theorem State.Inv.popPc {s t : State} {n : Nat} (h : s.Inv) (hp : popPc s = .ok (n, t)) : t.Inv := by
  rw [popPc_frame hp]
  refine ⟨h.1, h.2, ?_, h.4, h.5, h.6, h.7, h.8, h.9, h.10⟩
  unfold Machine.popPc at hp
  split at hp
  · cases hp
  · split at hp
    · cases hp
    · split at hp
      · cases hp
      · rename_i hi s1 h1 _ mid s2 h2 _ lo s3 h3
        cases hp
        have e1 : s1.cfg = s.cfg := by
          unfold popHigh at h1
          split at h1
          · rw [pop_frame h1]
          · cases h1; rfl
        have e2 : s2.cfg = s.cfg := by rw [pop_frame h2]; exact e1
        have e3 : t.sp = (readSp s2 + 1#16) &&& s2.cfg.spMask := by rw [pop_frame h3]
        rw [e3, e2]
        exact and_mask_idem _ _

/-- The self-programming controller's changes (log 9). -/
theorem State.Inv.withEdits {s : State} (h : s.Inv) (edits : List (Nat × Byte)) :
    ({ s with flash := applyEdits s.cfg edits s.flash } : State).Inv :=
  ⟨h.1, h.2, h.3, h.4, h.5, h.6, h.7, h.8, flashWf_applyEdits edits h.flash, h.10⟩

theorem risingIn_mono {lo lo' hi : Nat} {l : List Nat} (h : risingIn lo' hi l = true) (hlo : lo ≤ lo') :
    risingIn lo hi l = true := by
  cases l with
  | nil => rfl
  | cons n l =>
    simp only [risingIn, Bool.and_eq_true, decide_eq_true_eq] at h ⊢
    exact ⟨⟨by omega, h.1.2⟩, h.2⟩

/-- Clearing a request keeps the list strictly rising. -/
theorem risingIn_erase {lo hi : Nat} {l : List Nat} (n : Nat) (h : risingIn lo hi l = true) :
    risingIn lo hi (l.erase n) = true := by
  induction l generalizing lo with
  | nil => rfl
  | cons m l ih =>
    simp only [risingIn, Bool.and_eq_true, decide_eq_true_eq] at h
    simp only [List.erase_cons]
    split
    · exact risingIn_mono h.2 (by omega)
    · simp only [risingIn, Bool.and_eq_true, decide_eq_true_eq]
      exact ⟨h.1, ih h.2⟩

/-- A strictly rising list within the bounds is one in the machine's form. -/
theorem risingIn_of_pairwise {lo hi : Nat} {l : List Nat} (h : l.Pairwise (· < ·))
    (hb : ∀ n ∈ l, lo ≤ n ∧ n < hi) : risingIn lo hi l = true := by
  induction l generalizing lo with
  | nil => rfl
  | cons m l ih =>
    rw [List.pairwise_cons] at h
    simp only [risingIn, Bool.and_eq_true, decide_eq_true_eq]
    refine ⟨hb m (by simp), ih h.2 fun n hn => ⟨h.1 n hn, (hb n (by simp [hn])).2⟩⟩

/-- What a boundary leaves pending is a strictly rising list of vector numbers (R303). -/
theorem risingIn_requestsAfter (nVectors : Nat) (pending : List Nat) (b : Boundary) :
    risingIn 1 nVectors (requestsAfter nVectors pending b) = true := by
  apply risingIn_of_pairwise
  · exact List.Pairwise.filter _ List.pairwise_lt_range
  · intro n hn
    simp only [requestsAfter, List.mem_filter, List.mem_range, Bool.and_eq_true, decide_eq_true_eq] at hn
    exact ⟨hn.2.1.1, hn.1⟩

theorem State.Inv.ackRequest {s : State} (h : s.Inv) (n : Nat) : (ackRequest n s).Inv := by
  refine ⟨h.1, h.2, h.3, h.4, h.5, h.6, h.7, h.8, h.9, ?_⟩
  simp only [ackRequest_requests, ackRequest_cfg]
  split
  · exact risingIn_erase n h.requests
  · exact h.requests

theorem State.Inv.resetEvent {s : State} (h : s.Inv) : (resetEvent s).Inv := by
  refine ⟨h.1, ?_, and_mask_idem _ _, BitVec.zero_and, BitVec.zero_and, fun _ => rfl, fun _ => rfl, h.8, h.9,
    rfl⟩
  simp only [resetEvent_pc, resetEvent_cfg]
  rw [toNat_pc h.cfg]
  exact Nat.mod_lt _ (by positivity)

theorem State.Inv.takeBoundary {s : State} (h : s.Inv) : (takeBoundary s).2.Inv := by
  unfold Machine.takeBoundary
  split
  · exact h
  · exact ⟨h.1, h.2, h.3, h.4, h.5, h.6, h.7, h.8, h.9, risingIn_requestsAfter _ _ _⟩

theorem State.Inv.enterInterrupt {s t : State} {n : Nat} (h : s.Inv) (he : enterInterrupt n s = .next t) :
    t.Inv := by
  obtain ⟨u, hu, rfl⟩ := enterInterrupt_cases he
  exact ((((h.pushPc hu).mapSreg _).withMode _).setPc _).ackRequest _

end Sys2Proof.Machine
end

