-- ==== Sys2Proof/Laws/Operands.lean ====
section
/-! SUPPORT. For each way an instruction ends and for each operand form, all it can do when it answers: proofs cite
these and do not unfold the operation. -/

namespace Sys2Proof.Machine

/-! ## The ends of a step -/

theorem nextAfter_next {n : Nat} {s t : State} (h : nextAfter n s = .next t) : t = advance n s := by
  simpa [nextAfter, eq_comm] using h

/-- A step that may fault and answers comes from an access that succeeded. -/
theorem finish_next {n : Nat} {r : Except Fault State} {t : State} (h : finish n r = .next t) :
    ∃ u, r = .ok u ∧ t = advance n u := by
  unfold finish at h
  split at h
  · exact ⟨_, rfl, by simpa [eq_comm] using h⟩
  · cases h

theorem finish_fault {n : Nat} {r : Except Fault State} {f : Fault} (h : finish n r = .fault f) :
    r = .error f := by
  unfold finish at h
  split at h
  · cases h
  · simpa using h

theorem answer_next {r : Except Fault State} {t : State} (h : answer r = .next t) : r = .ok t := by
  unfold answer at h
  split at h
  · simpa using h
  · cases h

/-- An instruction of an optional group that answers is of a group the device has (R88). -/
theorem ifHas_next {g : Group} {i : Instr} {run : State → Result} {s t : State}
    (h : ifHas g i run s = .next t) : s.cfg.has g = true ∧ run s = .next t := by
  obtain ⟨hg, he⟩ | ⟨-, he⟩ := ifHas_cases g i run s
  · exact ⟨hg, he ▸ h⟩
  · rw [he] at h; cases h

/-- A displacement form that answers is one the device has (R217, R220). -/
theorem ifHasDisplaced_next {q : BitVec 6} {i : Instr} {run : State → Result} {s t : State}
    (h : ifHasDisplaced q i run s = .next t) : s.cfg.hasDisplaced q = true ∧ run s = .next t := by
  obtain ⟨hg, he⟩ | ⟨-, he⟩ := ifHasDisplaced_cases q i run s
  · exact ⟨hg, he ▸ h⟩
  · rw [he] at h; cases h

/-- A form that answers does not name a register of its own pointer (R209). -/
theorem ifDefined_next {p : Pointer} {d : Reg} {i : Instr} {run : State → Result} {s t : State}
    (h : ifDefined p d i run s = .next t) : p.holds d = false ∧ run s = .next t := by
  unfold ifDefined at h
  split at h
  · cases h
  · exact ⟨by simp_all, h⟩

/-- A skip that answers only moves `PC` (R143). -/
theorem skipIf_next {c : Bool} {s t : State} (h : skipIf c s = .next t) : ∃ n, t = advance n s := by
  obtain ⟨-, h⟩ | ⟨w, -, -, h⟩ | ⟨f, -, -, h⟩ := skipIf_cases h
  · exact ⟨_, by simpa using h⟩
  · exact ⟨_, by simpa using h⟩
  · cases h

/-! ## Loads and stores -/

theorem loadFrom_ok {a : Word} {d : Reg} {s t : State} (h : loadFrom a d s = .ok t) :
    ∃ v u, memRead a s = .ok (v, u) ∧ t = writeReg d v u := by
  unfold loadFrom at h
  split at h
  · exact ⟨_, _, by assumption, by simpa [eq_comm] using h⟩
  · cases h

/-- The access and then the pointer (R201). -/
theorem loadPostInc_ok {p : Pointer} {d : Reg} {s t : State} (h : loadPostInc p d s = .ok t) :
    ∃ v u, memRead (readPointer s p) s = .ok (v, u) ∧
      t = writePointer p (readPointer s p + 1#16) (writeReg d v u) := by
  unfold loadPostInc at h
  split at h
  · obtain ⟨v, u, hu, rfl⟩ := loadFrom_ok (by assumption)
    exact ⟨v, u, hu, by simpa [eq_comm] using h⟩
  · cases h

/-- The pointer and then the access (R201). -/
theorem loadPreDec_ok {p : Pointer} {d : Reg} {s t : State} (h : loadPreDec p d s = .ok t) :
    ∃ v u, memRead (readPointer s p - 1#16) (writePointer p (readPointer s p - 1#16) s) = .ok (v, u) ∧
      t = writeReg d v u := loadFrom_ok h

/-- The access and then the pointer, computed before it (R201, R227). -/
theorem storePostInc_ok {p : Pointer} {r : Reg} {s t : State} (h : storePostInc p r s = .ok t) :
    ∃ u, memWrite (readPointer s p) (readReg s r) s = .ok u ∧
      t = writePointer p (readPointer s p + 1#16) u := by
  unfold storePostInc at h
  split at h
  · exact ⟨_, by assumption, by simpa [eq_comm] using h⟩
  · cases h

/-- The access and then the pointer, computed before it (R201, R228, D17). -/
theorem storePreDec_ok {p : Pointer} {r : Reg} {s t : State} (h : storePreDec p r s = .ok t) :
    ∃ u, memWrite (readPointer s p - 1#16) (readReg s r) s = .ok u ∧
      t = writePointer p (readPointer s p - 1#16) u := by
  unfold storePreDec at h
  split at h
  · exact ⟨_, by assumption, by simpa [eq_comm] using h⟩
  · cases h

/-! ## Program memory -/

theorem loadProgram_ok {b : Nat} {d : Reg} {s t : State} (h : loadProgram b d s = .ok t) :
    ∃ v, pmByte b s = .ok v ∧ t = writeReg d v s := by
  unfold loadProgram at h
  split at h
  · exact ⟨_, by assumption, by simpa [eq_comm] using h⟩
  · cases h

theorem loadProgramInc_ok {d : Reg} {s t : State} (h : loadProgramInc d s = .ok t) :
    ∃ v, pmByte (readPointer s .z).toNat s = .ok v ∧
      t = writePointer .z (readPointer s .z + 1#16) (writeReg d v s) := by
  unfold loadProgramInc at h
  split at h
  · obtain ⟨v, hv, rfl⟩ := loadProgram_ok (by assumption)
    exact ⟨v, hv, by simpa [eq_comm] using h⟩
  · cases h

/-- `ELPM Rd, Z+` increments the 24-bit `RAMPZ:Z` (R242). -/
theorem loadExtendedInc_ok {d : Reg} {s t : State} (h : loadExtendedInc d s = .ok t) :
    ∃ v, pmByte (extendedZ s) s = .ok v ∧
      t = writeExtendedZ ((extendedZ s + 1) % 2 ^ 24) (writeReg d v s) := by
  unfold loadExtendedInc at h
  split at h
  · obtain ⟨v, hv, rfl⟩ := loadProgram_ok (by assumption)
    exact ⟨v, hv, by simpa [eq_comm] using h⟩
  · cases h

/-! ## Calls, returns, pops -/

theorem popInto_ok {d : Reg} {s t : State} (h : popInto d s = .ok t) :
    ∃ v u, pop s = .ok (v, u) ∧ t = writeReg d v u := by
  unfold popInto at h
  split at h
  · exact ⟨_, _, by assumption, by simpa [eq_comm] using h⟩
  · cases h

/-- A call pushes the address of the next instruction and goes to its target (R141). -/
theorem callTo_next {n k : Nat} {s t : State} (h : callTo n k s = .next t) :
    ∃ u, pushPc (s.pc.toNat + n) s = .ok u ∧ t = setPc k u := by
  unfold callTo at h
  split at h
  · exact ⟨_, by assumption, by simpa [eq_comm] using h⟩
  · cases h

/-- A return goes to the address popped (R142). -/
theorem returnTo_ok {s t : State} (h : returnTo s = .ok t) :
    ∃ n u, popPc s = .ok (n, u) ∧ t = setPc n u := by
  unfold returnTo at h
  split at h
  · exact ⟨_, _, by assumption, by simpa [eq_comm] using h⟩
  · cases h

/-- A return from interrupt also sets I and `irq_inhibit` (R309). -/
theorem leaveInterrupt_ok {s t : State} (h : leaveInterrupt s = .ok t) :
    ∃ n u, popPc s = .ok (n, u) ∧
      t = { mapSreg (fun sr => putFlag sr .i true) (setPc n u) with irqInhibit := true } := by
  unfold leaveInterrupt at h
  split at h
  · obtain ⟨n, u, hu, rfl⟩ := returnTo_ok (by assumption)
    exact ⟨n, u, hu, by simpa [eq_comm] using h⟩
  · cases h

/-! ## Values by arithmetic -/

/-- A byte read as a signed number. -/
theorem toInt_byte (x : Byte) : x.toInt = if x.toNat < 128 then (x.toNat : Int) else x.toNat - 256 := by
  rw [BitVec.toInt_eq_toNat_cond]
  split <;> split <;> omega

/-- The exclusive or of two decisions. -/
theorem decide_xor (p q : Prop) [Decidable p] [Decidable q] :
    (decide p ^^ decide q) = decide ((p ∧ ¬ q) ∨ (¬ p ∧ q)) := by
  by_cases hp : p <;> by_cases hq : q <;> simp [hp, hq]

end Sys2Proof.Machine
end

