-- ==== Sys2Proof/Laws/PerInstr.lean ====
section
/-! SUPPORT. Family `CanonicalEncode`: an instruction and the row that defines its word have the same words
(R83 of 30_encoding.md). -/

namespace Sys2Proof.Laws.CanonicalEncode

open Sys2Proof

/-- The row that defines the instruction's word encodes to the same words (R83). -/
def Statement (i : Instr) : Prop := encode i.canonical = encode i

theorem add (d : Reg) (r : Reg) : Statement (.add d r) := rfl
theorem adc (d : Reg) (r : Reg) : Statement (.adc d r) := rfl
theorem adiw (d : Reg) (k : BitVec 6) : Statement (.adiw d k) := rfl
theorem sub (d : Reg) (r : Reg) : Statement (.sub d r) := rfl
theorem subi (d : Reg) (k : BitVec 8) : Statement (.subi d k) := rfl
theorem sbc (d : Reg) (r : Reg) : Statement (.sbc d r) := rfl
theorem sbci (d : Reg) (k : BitVec 8) : Statement (.sbci d k) := rfl
theorem sbiw (d : Reg) (k : BitVec 6) : Statement (.sbiw d k) := rfl
theorem and (d : Reg) (r : Reg) : Statement (.and d r) := rfl
theorem andi (d : Reg) (k : BitVec 8) : Statement (.andi d k) := rfl
theorem or (d : Reg) (r : Reg) : Statement (.or d r) := rfl
theorem ori (d : Reg) (k : BitVec 8) : Statement (.ori d k) := rfl
theorem eor (d : Reg) (r : Reg) : Statement (.eor d r) := rfl
theorem com (d : Reg) : Statement (.com d) := rfl
theorem neg (d : Reg) : Statement (.neg d) := rfl
theorem sbr (d : Reg) (k : BitVec 8) : Statement (.sbr d k) := rfl
theorem cbr (d : Reg) (k : BitVec 8) : Statement (.cbr d k) := rfl
theorem inc (d : Reg) : Statement (.inc d) := rfl
theorem dec (d : Reg) : Statement (.dec d) := rfl
theorem tst (d : Reg) : Statement (.tst d) := rfl
theorem clr (d : Reg) : Statement (.clr d) := rfl
theorem ser (d : Reg) : Statement (.ser d) := rfl
theorem mul (d : Reg) (r : Reg) : Statement (.mul d r) := rfl
theorem muls (d : Reg) (r : Reg) : Statement (.muls d r) := rfl
theorem mulsu (d : Reg) (r : Reg) : Statement (.mulsu d r) := rfl
theorem fmul (d : Reg) (r : Reg) : Statement (.fmul d r) := rfl
theorem fmuls (d : Reg) (r : Reg) : Statement (.fmuls d r) := rfl
theorem fmulsu (d : Reg) (r : Reg) : Statement (.fmulsu d r) := rfl
theorem rjmp (k : BitVec 12) : Statement (.rjmp k) := rfl
theorem ijmp : Statement (.ijmp) := rfl
theorem eijmp : Statement (.eijmp) := rfl
theorem jmp (k : BitVec 22) : Statement (.jmp k) := rfl
theorem rcall (k : BitVec 12) : Statement (.rcall k) := rfl
theorem icall : Statement (.icall) := rfl
theorem eicall : Statement (.eicall) := rfl
theorem call (k : BitVec 22) : Statement (.call k) := rfl
theorem ret : Statement (.ret) := rfl
theorem reti : Statement (.reti) := rfl
theorem cpse (d : Reg) (r : Reg) : Statement (.cpse d r) := rfl
theorem cp (d : Reg) (r : Reg) : Statement (.cp d r) := rfl
theorem cpc (d : Reg) (r : Reg) : Statement (.cpc d r) := rfl
theorem cpi (d : Reg) (k : BitVec 8) : Statement (.cpi d k) := rfl
theorem sbrc (r : Reg) (b : BitVec 3) : Statement (.sbrc r b) := rfl
theorem sbrs (r : Reg) (b : BitVec 3) : Statement (.sbrs r b) := rfl
theorem sbic (a : BitVec 5) (b : BitVec 3) : Statement (.sbic a b) := rfl
theorem sbis (a : BitVec 5) (b : BitVec 3) : Statement (.sbis a b) := rfl
theorem brbs (s : BitVec 3) (k : BitVec 7) : Statement (.brbs s k) := rfl
theorem brbc (s : BitVec 3) (k : BitVec 7) : Statement (.brbc s k) := rfl
theorem breq (k : BitVec 7) : Statement (.breq k) := rfl
theorem brne (k : BitVec 7) : Statement (.brne k) := rfl
theorem brcs (k : BitVec 7) : Statement (.brcs k) := rfl
theorem brcc (k : BitVec 7) : Statement (.brcc k) := rfl
theorem brsh (k : BitVec 7) : Statement (.brsh k) := rfl
theorem brlo (k : BitVec 7) : Statement (.brlo k) := rfl
theorem brmi (k : BitVec 7) : Statement (.brmi k) := rfl
theorem brpl (k : BitVec 7) : Statement (.brpl k) := rfl
theorem brge (k : BitVec 7) : Statement (.brge k) := rfl
theorem brlt (k : BitVec 7) : Statement (.brlt k) := rfl
theorem brhs (k : BitVec 7) : Statement (.brhs k) := rfl
theorem brhc (k : BitVec 7) : Statement (.brhc k) := rfl
theorem brts (k : BitVec 7) : Statement (.brts k) := rfl
theorem brtc (k : BitVec 7) : Statement (.brtc k) := rfl
theorem brvs (k : BitVec 7) : Statement (.brvs k) := rfl
theorem brvc (k : BitVec 7) : Statement (.brvc k) := rfl
theorem brie (k : BitVec 7) : Statement (.brie k) := rfl
theorem brid (k : BitVec 7) : Statement (.brid k) := rfl
theorem brk : Statement (.brk) := rfl
theorem nop : Statement (.nop) := rfl
theorem sleep : Statement (.sleep) := rfl
theorem wdr : Statement (.wdr) := rfl
theorem mov (d : Reg) (r : Reg) : Statement (.mov d r) := rfl
theorem movw (d : Reg) (r : Reg) : Statement (.movw d r) := rfl
theorem ldi (d : Reg) (k : BitVec 8) : Statement (.ldi d k) := rfl
theorem lds (d : Reg) (k : BitVec 16) : Statement (.lds d k) := rfl
theorem ldX (d : Reg) : Statement (.ldX d) := rfl
theorem ldXInc (d : Reg) : Statement (.ldXInc d) := rfl
theorem ldXDec (d : Reg) : Statement (.ldXDec d) := rfl
theorem ldY (d : Reg) : Statement (.ldY d) := rfl
theorem ldYInc (d : Reg) : Statement (.ldYInc d) := rfl
theorem ldYDec (d : Reg) : Statement (.ldYDec d) := rfl
theorem lddY (d : Reg) (q : BitVec 6) : Statement (.lddY d q) := rfl
theorem ldZ (d : Reg) : Statement (.ldZ d) := rfl
theorem ldZInc (d : Reg) : Statement (.ldZInc d) := rfl
theorem ldZDec (d : Reg) : Statement (.ldZDec d) := rfl
theorem lddZ (d : Reg) (q : BitVec 6) : Statement (.lddZ d q) := rfl
theorem sts (k : BitVec 16) (r : Reg) : Statement (.sts k r) := rfl
theorem stX (r : Reg) : Statement (.stX r) := rfl
theorem stXInc (r : Reg) : Statement (.stXInc r) := rfl
theorem stXDec (r : Reg) : Statement (.stXDec r) := rfl
theorem stY (r : Reg) : Statement (.stY r) := rfl
theorem stYInc (r : Reg) : Statement (.stYInc r) := rfl
theorem stYDec (r : Reg) : Statement (.stYDec r) := rfl
theorem stdY (q : BitVec 6) (r : Reg) : Statement (.stdY q r) := rfl
theorem stZ (r : Reg) : Statement (.stZ r) := rfl
theorem stZInc (r : Reg) : Statement (.stZInc r) := rfl
theorem stZDec (r : Reg) : Statement (.stZDec r) := rfl
theorem stdZ (q : BitVec 6) (r : Reg) : Statement (.stdZ q r) := rfl
theorem lpm : Statement (.lpm) := rfl
theorem lpmZ (d : Reg) : Statement (.lpmZ d) := rfl
theorem lpmZInc (d : Reg) : Statement (.lpmZInc d) := rfl
theorem elpm : Statement (.elpm) := rfl
theorem elpmZ (d : Reg) : Statement (.elpmZ d) := rfl
theorem elpmZInc (d : Reg) : Statement (.elpmZInc d) := rfl
theorem spm : Statement (.spm) := rfl
theorem inp (d : Reg) (a : BitVec 6) : Statement (.inp d a) := rfl
theorem out (a : BitVec 6) (r : Reg) : Statement (.out a r) := rfl
theorem push (r : Reg) : Statement (.push r) := rfl
theorem pop (d : Reg) : Statement (.pop d) := rfl
theorem lsl (d : Reg) : Statement (.lsl d) := rfl
theorem lsr (d : Reg) : Statement (.lsr d) := rfl
theorem rol (d : Reg) : Statement (.rol d) := rfl
theorem ror (d : Reg) : Statement (.ror d) := rfl
theorem asr (d : Reg) : Statement (.asr d) := rfl
theorem swap (d : Reg) : Statement (.swap d) := rfl
theorem bset (s : BitVec 3) : Statement (.bset s) := rfl
theorem bclr (s : BitVec 3) : Statement (.bclr s) := rfl
theorem sbi (a : BitVec 5) (b : BitVec 3) : Statement (.sbi a b) := rfl
theorem cbi (a : BitVec 5) (b : BitVec 3) : Statement (.cbi a b) := rfl
theorem bst (r : Reg) (b : BitVec 3) : Statement (.bst r b) := rfl
theorem bld (d : Reg) (b : BitVec 3) : Statement (.bld d b) := rfl
theorem sec : Statement (.sec) := rfl
theorem clc : Statement (.clc) := rfl
theorem sen : Statement (.sen) := rfl
theorem cln : Statement (.cln) := rfl
theorem sez : Statement (.sez) := rfl
theorem clz : Statement (.clz) := rfl
theorem sei : Statement (.sei) := rfl
theorem cli : Statement (.cli) := rfl
theorem ses : Statement (.ses) := rfl
theorem cls : Statement (.cls) := rfl
theorem sev : Statement (.sev) := rfl
theorem clv : Statement (.clv) := rfl
theorem set : Statement (.set) := rfl
theorem clt : Statement (.clt) := rfl
theorem seh : Statement (.seh) := rfl
theorem clh : Statement (.clh) := rfl

end Sys2Proof.Laws.CanonicalEncode
end

