-- ==== Sys2Proof/Machine/Timing.lean ====
section
/-! DEFINITION. The #Clock column (R340, R341 of 70_reset_and_hazards.md), informative: no meaning reads it
(R339; log 13). -/

namespace Sys2Proof

/-- The clock counts of the instruction, in the column's order: for a branch, not taken and taken; for a skip,
none, one and two words skipped; for a call or return, a two-byte and a three-byte `PC`; `SPM` has none (R341). -/
def Instr.clocks : Instr → List Nat
  | .add _ _ => [1]
  | .adc _ _ => [1]
  | .adiw _ _ => [2]
  | .sub _ _ => [1]
  | .subi _ _ => [1]
  | .sbc _ _ => [1]
  | .sbci _ _ => [1]
  | .sbiw _ _ => [2]
  | .and _ _ => [1]
  | .andi _ _ => [1]
  | .or _ _ => [1]
  | .ori _ _ => [1]
  | .eor _ _ => [1]
  | .com _ => [1]
  | .neg _ => [1]
  | .sbr _ _ => [1]
  | .cbr _ _ => [1]
  | .inc _ => [1]
  | .dec _ => [1]
  | .tst _ => [1]
  | .clr _ => [1]
  | .ser _ => [1]
  | .mul _ _ => [2]
  | .muls _ _ => [2]
  | .mulsu _ _ => [2]
  | .fmul _ _ => [2]
  | .fmuls _ _ => [2]
  | .fmulsu _ _ => [2]
  | .rjmp _ => [2]
  | .ijmp => [2]
  | .eijmp => [2]
  | .jmp _ => [3]
  | .rcall _ => [3, 4]
  | .icall => [3, 4]
  | .eicall => [4]
  | .call _ => [4, 5]
  | .ret => [4, 5]
  | .reti => [4, 5]
  | .cpse _ _ => [1, 2, 3]
  | .cp _ _ => [1]
  | .cpc _ _ => [1]
  | .cpi _ _ => [1]
  | .sbrc _ _ => [1, 2, 3]
  | .sbrs _ _ => [1, 2, 3]
  | .sbic _ _ => [1, 2, 3]
  | .sbis _ _ => [1, 2, 3]
  | .brbs _ _ => [1, 2]
  | .brbc _ _ => [1, 2]
  | .breq _ => [1, 2]
  | .brne _ => [1, 2]
  | .brcs _ => [1, 2]
  | .brcc _ => [1, 2]
  | .brsh _ => [1, 2]
  | .brlo _ => [1, 2]
  | .brmi _ => [1, 2]
  | .brpl _ => [1, 2]
  | .brge _ => [1, 2]
  | .brlt _ => [1, 2]
  | .brhs _ => [1, 2]
  | .brhc _ => [1, 2]
  | .brts _ => [1, 2]
  | .brtc _ => [1, 2]
  | .brvs _ => [1, 2]
  | .brvc _ => [1, 2]
  | .brie _ => [1, 2]
  | .brid _ => [1, 2]
  | .brk => [1]
  | .nop => [1]
  | .sleep => [1]
  | .wdr => [1]
  | .mov _ _ => [1]
  | .movw _ _ => [1]
  | .ldi _ _ => [1]
  | .lds _ _ => [2]
  | .ldX _ => [2]
  | .ldXInc _ => [2]
  | .ldXDec _ => [2]
  | .ldY _ => [2]
  | .ldYInc _ => [2]
  | .ldYDec _ => [2]
  | .lddY _ _ => [2]
  | .ldZ _ => [2]
  | .ldZInc _ => [2]
  | .ldZDec _ => [2]
  | .lddZ _ _ => [2]
  | .sts _ _ => [2]
  | .stX _ => [2]
  | .stXInc _ => [2]
  | .stXDec _ => [2]
  | .stY _ => [2]
  | .stYInc _ => [2]
  | .stYDec _ => [2]
  | .stdY _ _ => [2]
  | .stZ _ => [2]
  | .stZInc _ => [2]
  | .stZDec _ => [2]
  | .stdZ _ _ => [2]
  | .lpm => [3]
  | .lpmZ _ => [3]
  | .lpmZInc _ => [3]
  | .elpm => [3]
  | .elpmZ _ => [3]
  | .elpmZInc _ => [3]
  | .spm => []
  | .inp _ _ => [1]
  | .out _ _ => [1]
  | .push _ => [2]
  | .pop _ => [2]
  | .lsl _ => [1]
  | .lsr _ => [1]
  | .rol _ => [1]
  | .ror _ => [1]
  | .asr _ => [1]
  | .swap _ => [1]
  | .bset _ => [1]
  | .bclr _ => [1]
  | .sbi _ _ => [2]
  | .cbi _ _ => [2]
  | .bst _ _ => [1]
  | .bld _ _ => [1]
  | .sec => [1]
  | .clc => [1]
  | .sen => [1]
  | .cln => [1]
  | .sez => [1]
  | .clz => [1]
  | .sei => [1]
  | .cli => [1]
  | .ses => [1]
  | .cls => [1]
  | .sev => [1]
  | .clv => [1]
  | .set => [1]
  | .clt => [1]
  | .seh => [1]
  | .clh => [1]

end Sys2Proof
end

