-- ==== Sys2Proof/Tests/Slice0.lean ====
section
/-! SUPPORT. Tests: ill-formed terms refused, words of the spec decoded, one step of each instruction against the
Examples of 40_arithmetic_logic.md to 44_bit_and_bit_test.md, and for each obligation with hypotheses a state
that meets them. -/

namespace Sys2Proof.Tests

open Sys2Proof.Machine

/-! ## WellFormed refuses an ill-formed term of each kind (R25) -/

theorem test_wf_upper_half :
    ([Instr.subi 15 0#8, .sbci 0 1#8, .andi 15 1#8, .ori 15 1#8, .sbr 15 1#8, .cbr 15 1#8, .ser 15, .cpi 15 1#8,
      .ldi 15 1#8, .muls 15 16, .muls 16 15].all fun i => !i.wf) = true := by decide

theorem test_wf_r16_to_r23 :
    ([Instr.mulsu 15 16, .mulsu 16 24, .fmul 24 16, .fmul 16 15, .fmuls 15 16, .fmuls 16 24, .fmulsu 24 16,
      .fmulsu 16 15].all fun i => !i.wf) = true := by decide

theorem test_wf_word_pair :
    ([Instr.adiw 22 1#6, .adiw 25 1#6, .sbiw 0 1#6, .sbiw 31 1#6].all fun i => !i.wf) = true := by decide

theorem test_wf_even :
    ([Instr.movw 1 2, .movw 2 3].all fun i => !i.wf) = true := by decide

/-- Reserved first words (R85), one of each pattern, are refused by name. -/
theorem test_decode_reserved :
    ([0x0001#16, 0x00FF#16, 0x9003#16, 0x9008#16, 0x900B#16, 0x9203#16, 0x9204#16, 0x9207#16, 0x9208#16, 0x920B#16,
      0x9404#16, 0x940B#16, 0x9528#16, 0x95B8#16, 0x95F8#16, 0x9429#16, 0x9599#16, 0xF808#16, 0xFFFF#16].all
      fun w => decodeTableWord 16 w.toNat == none) = true := by decide

/-! ## A bench -/

/-- A state after power-on, at `PC` 0x0100, with these registers and this `SREG`. -/
def bench (c : Config) (regs : List (Reg × Byte)) (sreg : Byte) : State :=
  regs.foldl (fun s x => writeReg x.1 x.2 s)
    { State.powerOn c (Vector.replicate 32 0#8) with pc := 0x100#22, sreg := sreg }

/-- The outcome is a next state that passes the check. -/
def answers (o : Result) (p : State → Bool) : Bool :=
  match o with
  | .next t => p t
  | .fault _ => false
  | .refused _ => false

/-- One step with these words at `PC`. -/
def runs (s : State) (w : Nat) (p : State → Bool) : Bool := answers (step (s.withFetchWord 32 w)) p

/-! ## Decoding: for every row a word of the spec, written out (the Examples of 40 to 44) -/

/-- The arithmetic and logic rows that define a word. -/
theorem test_decode_arithmetic :
    ([(16, 0x0F01, Instr.add 16 17), (16, 0x1C23, .adc 2 3), (16, 0x9601, .adiw 24 1#6),
    (16, 0x1B01, .sub 16 17), (16, 0x5100, .subi 16 16#8), (16, 0x0835, .sbc 3 5),
    (16, 0x4010, .sbci 17 0#8), (16, 0x9711, .sbiw 26 1#6), (16, 0x2301, .and 16 17),
    (16, 0x702F, .andi 18 15#8), (16, 0x2801, .or 0 1), (16, 0x6801, .ori 16 129#8),
    (16, 0x2445, .eor 4 5), (16, 0x9500, .com 16), (16, 0x9501, .neg 16), (16, 0x9503, .inc 16),
    (16, 0x950A, .dec 16), (16, 0x9F01, .mul 16 17), (16, 0x0201, .muls 16 17),
    (16, 0x0301, .mulsu 16 17), (16, 0x0309, .fmul 16 17), (16, 0x0381, .fmuls 16 17),
    (16, 0x0389, .fmulsu 16 17)].all
      fun x => decodeTableWord x.1 x.2.1 == some x.2.2) = true := by decide

/-- The arithmetic and logic rows that are another name of a word: their word, and the row it decodes as (R83). -/
theorem test_encode_arithmetic_names :
    ([(0x6003#16, Instr.sbr 16 3#8), (0x7F00#16, .cbr 16 15#8), (0x2055#16, .tst 5),
    (0x2400#16, .clr 0), (0xEF1F#16, .ser 17)].all
      fun x => encode x.2 == [x.1] && decodeTableWord 16 x.1.toNat == some x.2.canonical) = true := by
  decide

/-- The branch rows that define a word. -/
theorem test_decode_branch :
    ([(16, 0xCFFD, Instr.rjmp 4093#12), (16, 0x9409, .ijmp), (16, 0x9419, .eijmp),
    (32, 0x1234940C, .jmp 4660#22), (16, 0xD005, .rcall 5#12), (16, 0x9509, .icall),
    (16, 0x9519, .eicall), (32, 0x0400940E, .call 1024#22), (16, 0x9508, .ret), (16, 0x9518, .reti),
    (16, 0x1045, .cpse 4 5), (16, 0x1701, .cp 16 17), (16, 0x0713, .cpc 17 19),
    (16, 0x3400, .cpi 16 64#8), (16, 0xFC53, .sbrc 5 3#3), (16, 0xFE57, .sbrs 5 7#3),
    (16, 0x992A, .sbic 5#5 2#3), (16, 0x9B2A, .sbis 5#5 2#3), (16, 0xF056, .brbs 6#3 10#7),
    (16, 0xF600, .brbc 0#3 64#7)].all
      fun x => decodeTableWord x.1 x.2.1 == some x.2.2) = true := by decide

/-- The branch rows that are another name of a word: their word, and the row it decodes as (R83). -/
theorem test_encode_branch_names :
    ([(0xF029#16, Instr.breq 5#7), (0xF7F1#16, .brne 126#7), (0xF028#16, .brcs 5#7),
    (0xF428#16, .brcc 5#7), (0xF428#16, .brsh 5#7), (0xF028#16, .brlo 5#7), (0xF02A#16, .brmi 5#7),
    (0xF42A#16, .brpl 5#7), (0xF42C#16, .brge 5#7), (0xF02C#16, .brlt 5#7), (0xF02D#16, .brhs 5#7),
    (0xF42D#16, .brhc 5#7), (0xF02E#16, .brts 5#7), (0xF42E#16, .brtc 5#7), (0xF02B#16, .brvs 5#7),
    (0xF42B#16, .brvc 5#7), (0xF02F#16, .brie 5#7), (0xF42F#16, .brid 5#7)].all
      fun x => encode x.2 == [x.1] && decodeTableWord 16 x.1.toNat == some x.2.canonical) = true := by
  decide

/-- The control rows that define a word. -/
theorem test_decode_control :
    ([(16, 0x9598, Instr.brk), (16, 0x0000, .nop), (16, 0x9588, .sleep), (16, 0x95A8, .wdr)].all
      fun x => decodeTableWord x.1 x.2.1 == some x.2.2) = true := by decide

/-- The transfer rows that define a word. -/
theorem test_decode_transfer :
    ([(16, 0x2E14, Instr.mov 1 20), (16, 0x01CF, .movw 24 30), (16, 0xE50A, .ldi 16 90#8),
    (32, 0x01239100, .lds 16 291#16), (16, 0x905C, .ldX 5), (16, 0x905D, .ldXInc 5),
    (16, 0x905E, .ldXDec 5), (16, 0x9009, .ldYInc 0), (16, 0x900A, .ldYDec 0),
    (16, 0xAC4F, .lddY 4 63#6), (16, 0x9001, .ldZInc 0), (16, 0x9002, .ldZDec 0),
    (16, 0x8041, .lddZ 4 1#6), (32, 0x01239300, .sts 291#16 16), (16, 0x925C, .stX 5),
    (16, 0x925D, .stXInc 5), (16, 0x925E, .stXDec 5), (16, 0x9259, .stYInc 5), (16, 0x925A, .stYDec 5),
    (16, 0x825A, .stdY 2#6 5), (16, 0x9251, .stZInc 5), (16, 0x9252, .stZDec 5),
    (16, 0xAE57, .stdZ 63#6 5), (16, 0x95C8, .lpm), (16, 0x9104, .lpmZ 16), (16, 0x9105, .lpmZInc 16),
    (16, 0x95D8, .elpm), (16, 0x9106, .elpmZ 16), (16, 0x9107, .elpmZInc 16), (16, 0x95E8, .spm),
    (16, 0xB60F, .inp 0 63#6), (16, 0xBF0D, .out 61#6 16), (16, 0x930F, .push 16),
    (16, 0x911F, .pop 17)].all
      fun x => decodeTableWord x.1 x.2.1 == some x.2.2) = true := by decide

/-- The transfer rows that are another name of a word: their word, and the row it decodes as (R83). -/
theorem test_encode_transfer_names :
    ([(0x8058#16, Instr.ldY 5), (0x8050#16, .ldZ 5), (0x8258#16, .stY 5), (0x8250#16, .stZ 5)].all
      fun x => encode x.2 == [x.1] && decodeTableWord 16 x.1.toNat == some x.2.canonical) = true := by
  decide

/-- The bit rows that define a word. -/
theorem test_decode_bit :
    ([(16, 0x9506, Instr.lsr 16), (16, 0x9517, .ror 17), (16, 0x9505, .asr 16), (16, 0x9502, .swap 16),
    (16, 0x9468, .bset 6#3), (16, 0x9498, .bclr 1#3), (16, 0x9A2B, .sbi 5#5 3#3),
    (16, 0x9828, .cbi 5#5 0#3), (16, 0xFA54, .bst 5 4#3), (16, 0xF860, .bld 6 0#3)].all
      fun x => decodeTableWord x.1 x.2.1 == some x.2.2) = true := by decide

/-- The bit rows that are another name of a word: their word, and the row it decodes as (R83). -/
theorem test_encode_bit_names :
    ([(0x0F00#16, Instr.lsl 16), (0x1F11#16, .rol 17), (0x9408#16, .sec), (0x9488#16, .clc),
    (0x9428#16, .sen), (0x94A8#16, .cln), (0x9418#16, .sez), (0x9498#16, .clz), (0x9478#16, .sei),
    (0x94F8#16, .cli), (0x9448#16, .ses), (0x94C8#16, .cls), (0x9438#16, .sev), (0x94B8#16, .clv),
    (0x9468#16, .set), (0x94E8#16, .clt), (0x9458#16, .seh), (0x94D8#16, .clh)].all
      fun x => encode x.2 == [x.1] && decodeTableWord 16 x.1.toNat == some x.2.canonical) = true := by
  decide

/-! ## One step of each instruction: the Examples of 40 to 44 -/

/-- `add r16, r17` -/
theorem test_add :
    runs (bench .t16 [(16, 0x7F#8), (17, 0x01#8)] 0x00#8) 0x0F01 (fun t => t.pc == 0x101#22 &&
    t.sreg == 0x2C#8 && readReg t 16 == 0x80#8) = true := by decide

/-- `adc r2, r3` -/
theorem test_adc :
    runs (bench .t16 [(2, 0xFF#8), (3, 0x00#8)] 0x01#8) 0x1C23 (fun t => t.pc == 0x101#22 &&
    t.sreg == 0x23#8 && readReg t 2 == 0x00#8) = true := by decide

/-- `adiw r24, 1` -/
theorem test_adiw :
    runs (bench .t16 [(24, 0xFF#8), (25, 0xFF#8)] 0x00#8) 0x9601 (fun t => t.pc == 0x101#22 &&
    t.sreg == 0x03#8 && readReg t 24 == 0x00#8 && readReg t 25 == 0x00#8) = true := by decide

/-- `sub r16, r17` -/
theorem test_sub :
    runs (bench .t16 [(16, 0x80#8), (17, 0x01#8)] 0x00#8) 0x1B01 (fun t => t.pc == 0x101#22 &&
    t.sreg == 0x38#8 && readReg t 16 == 0x7F#8) = true := by decide

/-- `subi r16, 0x10` -/
theorem test_subi :
    runs (bench .t16 [(16, 0x05#8)] 0x00#8) 0x5100 (fun t => t.pc == 0x101#22 && t.sreg == 0x15#8 &&
    readReg t 16 == 0xF5#8) = true := by decide

/-- `sbc r3, r5` -/
theorem test_sbc :
    runs (bench .t16 [(3, 0x00#8), (5, 0x00#8)] 0x03#8) 0x0835 (fun t => t.pc == 0x101#22 &&
    t.sreg == 0x35#8 && readReg t 3 == 0xFF#8) = true := by decide

/-- `sbci r17, 0x00` -/
theorem test_sbci :
    runs (bench .t16 [(17, 0x01#8)] 0x03#8) 0x4010 (fun t => t.pc == 0x101#22 && t.sreg == 0x02#8 &&
    readReg t 17 == 0x00#8) = true := by decide

/-- `sbiw r26, 1` -/
theorem test_sbiw :
    runs (bench .t16 [(26, 0x00#8), (27, 0x80#8)] 0x00#8) 0x9711 (fun t => t.pc == 0x101#22 &&
    t.sreg == 0x18#8 && readReg t 26 == 0xFF#8 && readReg t 27 == 0x7F#8) = true := by decide

/-- `and r16, r17` -/
theorem test_and :
    runs (bench .t16 [(16, 0xF0#8), (17, 0x3C#8)] 0x01#8) 0x2301 (fun t => t.pc == 0x101#22 &&
    t.sreg == 0x01#8 && readReg t 16 == 0x30#8) = true := by decide

/-- `andi r18, 0x0F` -/
theorem test_andi :
    runs (bench .t16 [(18, 0xA5#8)] 0x00#8) 0x702F (fun t => t.pc == 0x101#22 && t.sreg == 0x00#8 &&
    readReg t 18 == 0x05#8) = true := by decide

/-- `or r0, r1` -/
theorem test_or :
    runs (bench .t16 [(0, 0x80#8), (1, 0x01#8)] 0x00#8) 0x2801 (fun t => t.pc == 0x101#22 &&
    t.sreg == 0x14#8 && readReg t 0 == 0x81#8) = true := by decide

/-- `ori r16, 0x81` -/
theorem test_ori :
    runs (bench .t16 [(16, 0x00#8)] 0x00#8) 0x6801 (fun t => t.pc == 0x101#22 && t.sreg == 0x14#8 &&
    readReg t 16 == 0x81#8) = true := by decide

/-- `eor r4, r5` -/
theorem test_eor :
    runs (bench .t16 [(4, 0xFF#8), (5, 0x0F#8)] 0x00#8) 0x2445 (fun t => t.pc == 0x101#22 &&
    t.sreg == 0x14#8 && readReg t 4 == 0xF0#8) = true := by decide

/-- `com r16` -/
theorem test_com :
    runs (bench .t16 [(16, 0x55#8)] 0x00#8) 0x9500 (fun t => t.pc == 0x101#22 && t.sreg == 0x15#8 &&
    readReg t 16 == 0xAA#8) = true := by decide

/-- `neg r16` -/
theorem test_neg :
    runs (bench .t16 [(16, 0x01#8)] 0x00#8) 0x9501 (fun t => t.pc == 0x101#22 && t.sreg == 0x35#8 &&
    readReg t 16 == 0xFF#8) = true := by decide

/-- `sbr r16, 0x03` -/
theorem test_sbr :
    answers (exec (.sbr 16 3#8) (bench .t16 [(16, 0xF0#8)] 0x00#8)) (fun t => t.pc == 0x101#22 &&
    t.sreg == 0x14#8 && readReg t 16 == 0xF3#8) = true := by decide

/-- `cbr r16, 0x0F` -/
theorem test_cbr :
    answers (exec (.cbr 16 15#8) (bench .t16 [(16, 0xFF#8)] 0x00#8)) (fun t => t.pc == 0x101#22 &&
    t.sreg == 0x14#8 && readReg t 16 == 0xF0#8) = true := by decide

/-- `inc r16` -/
theorem test_inc :
    runs (bench .t16 [(16, 0x7F#8)] 0x01#8) 0x9503 (fun t => t.pc == 0x101#22 && t.sreg == 0x0D#8 &&
    readReg t 16 == 0x80#8) = true := by decide

/-- `dec r16` -/
theorem test_dec :
    runs (bench .t16 [(16, 0x80#8)] 0x00#8) 0x950A (fun t => t.pc == 0x101#22 && t.sreg == 0x18#8 &&
    readReg t 16 == 0x7F#8) = true := by decide

/-- `tst r5` -/
theorem test_tst :
    answers (exec (.tst 5) (bench .t16 [(5, 0x80#8)] 0x00#8)) (fun t => t.pc == 0x101#22 &&
    t.sreg == 0x14#8) = true := by decide

/-- `clr r0` -/
theorem test_clr :
    answers (exec (.clr 0) (bench .t16 [(0, 0x5A#8)] 0x04#8)) (fun t => t.pc == 0x101#22 &&
    t.sreg == 0x02#8 && readReg t 0 == 0x00#8) = true := by decide

/-- `ser r17` -/
theorem test_ser :
    answers (exec (.ser 17) (bench .t16 [(17, 0x00#8)] 0x00#8)) (fun t => t.pc == 0x101#22 &&
    t.sreg == 0x00#8 && readReg t 17 == 0xFF#8) = true := by decide

/-- `mul r16, r17` -/
theorem test_mul :
    runs (bench .t16 [(16, 0xFF#8), (17, 0xFF#8)] 0x00#8) 0x9F01 (fun t => t.pc == 0x101#22 &&
    t.sreg == 0x01#8 && readReg t 0 == 0x01#8 && readReg t 1 == 0xFE#8) = true := by decide

/-- `muls r16, r17` -/
theorem test_muls :
    runs (bench .t16 [(16, 0xFF#8), (17, 0x02#8)] 0x00#8) 0x0201 (fun t => t.pc == 0x101#22 &&
    t.sreg == 0x01#8 && readReg t 0 == 0xFE#8 && readReg t 1 == 0xFF#8) = true := by decide

/-- `mulsu r16, r17` -/
theorem test_mulsu :
    runs (bench .t16 [(16, 0xFF#8), (17, 0xFF#8)] 0x00#8) 0x0301 (fun t => t.pc == 0x101#22 &&
    t.sreg == 0x01#8 && readReg t 0 == 0x01#8 && readReg t 1 == 0xFF#8) = true := by decide

/-- `fmul r16, r17` -/
theorem test_fmul :
    runs (bench .t16 [(16, 0xC0#8), (17, 0xC0#8)] 0x00#8) 0x0309 (fun t => t.pc == 0x101#22 &&
    t.sreg == 0x01#8 && readReg t 0 == 0x00#8 && readReg t 1 == 0x20#8) = true := by decide

/-- `fmuls r16, r17` -/
theorem test_fmuls :
    runs (bench .t16 [(16, 0x80#8), (17, 0x80#8)] 0x00#8) 0x0381 (fun t => t.pc == 0x101#22 &&
    t.sreg == 0x00#8 && readReg t 0 == 0x00#8 && readReg t 1 == 0x80#8) = true := by decide

/-- `fmulsu r16, r17` -/
theorem test_fmulsu :
    runs (bench .t16 [(16, 0x80#8), (17, 0x80#8)] 0x00#8) 0x0389 (fun t => t.pc == 0x101#22 &&
    t.sreg == 0x01#8 && readReg t 0 == 0x00#8 && readReg t 1 == 0x80#8) = true := by decide

/-- `rjmp -3` -/
theorem test_rjmp :
    runs (bench .t16 [] 0x00#8) 0xCFFD (fun t => t.pc == 0x0FE#22 &&
    t.sreg == 0x00#8) = true := by decide

/-- `ijmp` -/
theorem test_ijmp :
    runs (bench .t16 [(30, 0x45#8), (31, 0x03#8)] 0x00#8) 0x9409 (fun t => t.pc == 0x345#22 &&
    t.sreg == 0x00#8) = true := by decide

/-- `eijmp` -/
theorem test_eijmp :
    runs { bench .t22 [(30, 0x45#8), (31, 0x23#8)] 0x00#8 with eind := 0x01#8 }
    0x9419 (fun t => t.pc == 0x12345#22 && t.sreg == 0x00#8) = true := by decide

/-- `jmp 0x1234` -/
theorem test_jmp :
    runs (bench .t16 [] 0x00#8) 0x1234940C (fun t => t.pc == 0x1234#22 &&
    t.sreg == 0x00#8) = true := by decide

/-- `rcall 5` -/
theorem test_rcall :
    runs { bench .t16 [] 0x00#8 with sp := 0x08FF#16, pc := 0x1234#22 }
    0xD005 (fun t => t.pc == 0x123A#22 && t.sreg == 0x00#8 && sramByte t.sram 0x08FE == 0x12#8 &&
    sramByte t.sram 0x08FF == 0x35#8 && t.sp == 0x08FD#16) = true := by decide

/-- `icall` -/
theorem test_icall :
    runs { bench .t16 [(30, 0x00#8), (31, 0x04#8)] 0x00#8 with sp := 0x08FF#16, pc := 0x1234#22 }
    0x9509 (fun t => t.pc == 0x400#22 && t.sreg == 0x00#8 && sramByte t.sram 0x08FE == 0x12#8 &&
    sramByte t.sram 0x08FF == 0x35#8 && t.sp == 0x08FD#16) = true := by decide

/-- `eicall` -/
theorem test_eicall :
    runs { bench .t22 [(30, 0x00#8), (31, 0x04#8)] 0x00#8 with eind := 0x02#8, sp := 0x21FF#16, pc := 0x12345#22 }
    0x9519 (fun t => t.pc == 0x20400#22 && t.sreg == 0x00#8 && sramByte t.sram 0x21FD == 0x01#8 &&
    sramByte t.sram 0x21FE == 0x23#8 && sramByte t.sram 0x21FF == 0x46#8 &&
    t.sp == 0x21FC#16) = true := by decide

/-- `call 0x0400` -/
theorem test_call :
    runs { bench .t16 [] 0x00#8 with sp := 0x08FF#16, pc := 0x1234#22 }
    0x0400940E (fun t => t.pc == 0x400#22 && t.sreg == 0x00#8 && sramByte t.sram 0x08FE == 0x12#8 &&
    sramByte t.sram 0x08FF == 0x36#8 && t.sp == 0x08FD#16) = true := by decide

/-- `call 0x012000` -/
theorem test_call_three_bytes :
    runs { bench .t22 [] 0x00#8 with sp := 0x21FF#16, pc := 0x10000#22 }
    0x2000940F (fun t => t.pc == 0x12000#22 && t.sreg == 0x00#8 && sramByte t.sram 0x21FD == 0x01#8 &&
    sramByte t.sram 0x21FE == 0x00#8 && sramByte t.sram 0x21FF == 0x02#8 &&
    t.sp == 0x21FC#16) = true := by decide

/-- `ret` -/
theorem test_ret :
    runs { bench .t16 [] 0x00#8 with sp := 0x08FD#16, sram := [(0x08FE, 0x12#8), (0x08FF, 0x35#8)] }
    0x9508 (fun t => t.pc == 0x1235#22 && t.sreg == 0x00#8 && t.sp == 0x08FF#16) = true := by decide

/-- `ret` -/
theorem test_ret_three_bytes :
    runs { bench .t22 [] 0x00#8 with sp := 0x21FC#16, sram := [(0x21FD, 0x01#8), (0x21FE, 0x23#8), (0x21FF, 0x46#8)] }
    0x9508 (fun t => t.pc == 0x12346#22 && t.sreg == 0x00#8 && t.sp == 0x21FF#16) = true := by decide

/-- `reti` -/
theorem test_reti :
    runs { bench .t16 [] 0x00#8 with sp := 0x08FD#16, sram := [(0x08FE, 0x02#8), (0x08FF, 0x00#8)] }
    0x9518 (fun t => t.pc == 0x200#22 && t.sreg == 0x80#8 && t.sp == 0x08FF#16 &&
    t.irqInhibit) = true := by decide

/-- `cpse r4, r5` -/
theorem test_cpse :
    runs (bench .t16 [(4, 0x33#8), (5, 0x33#8)] 0x00#8) 0x940C1045 (fun t => t.pc == 0x103#22 &&
    t.sreg == 0x00#8) = true := by decide

/-- `cpse r4, r5` -/
theorem test_cpse_falls_through :
    runs (bench .t16 [(4, 0x33#8), (5, 0x34#8)] 0x00#8) 0x1045 (fun t => t.pc == 0x101#22 &&
    t.sreg == 0x00#8) = true := by decide

/-- `cp r16, r17` -/
theorem test_cp :
    runs (bench .t16 [(16, 0x10#8), (17, 0x20#8)] 0x00#8) 0x1701 (fun t => t.pc == 0x101#22 &&
    t.sreg == 0x15#8) = true := by decide

/-- `cpc r17, r19` -/
theorem test_cpc :
    runs (bench .t16 [(17, 0x12#8), (19, 0x12#8)] 0x03#8) 0x0713 (fun t => t.pc == 0x101#22 &&
    t.sreg == 0x35#8) = true := by decide

/-- `cpi r16, 0x40` -/
theorem test_cpi :
    runs (bench .t16 [(16, 0x40#8)] 0x00#8) 0x3400 (fun t => t.pc == 0x101#22 &&
    t.sreg == 0x02#8) = true := by decide

/-- `sbrc r5, 3` -/
theorem test_sbrc :
    runs (bench .t16 [(5, 0xF7#8)] 0x00#8) 0xFC53 (fun t => t.pc == 0x102#22 &&
    t.sreg == 0x00#8) = true := by decide

/-- `sbrc r5, 3` -/
theorem test_sbrc_falls_through :
    runs (bench .t16 [(5, 0x08#8)] 0x00#8) 0xFC53 (fun t => t.pc == 0x101#22 &&
    t.sreg == 0x00#8) = true := by decide

/-- `sbrs r5, 7` -/
theorem test_sbrs :
    runs (bench .t16 [(5, 0x80#8)] 0x00#8) 0x9180FE57 (fun t => t.pc == 0x103#22 &&
    t.sreg == 0x00#8) = true := by decide

/-- `sbic 0x05, 2` -/
theorem test_sbic :
    runs { bench .t16 [] 0x00#8 with ioInputs := [0xFB#8] } 0x992A (fun t => t.pc == 0x102#22 &&
    t.sreg == 0x00#8 && t.ioTrace == [.read 0x05 0xFB#8]) = true := by decide

/-- `sbis 0x05, 2` -/
theorem test_sbis :
    runs { bench .t16 [] 0x00#8 with ioInputs := [0xFB#8] } 0x9B2A (fun t => t.pc == 0x101#22 &&
    t.sreg == 0x00#8 && t.ioTrace == [.read 0x05 0xFB#8]) = true := by decide

/-- `brbs 6, 10` -/
theorem test_brbs :
    runs (bench .t16 [] 0x40#8) 0xF056 (fun t => t.pc == 0x10B#22 &&
    t.sreg == 0x40#8) = true := by decide

/-- `brbc 0, -64` -/
theorem test_brbc :
    runs (bench .t16 [] 0x00#8) 0xF600 (fun t => t.pc == 0x0C1#22 &&
    t.sreg == 0x00#8) = true := by decide

/-- Rows 49 to 66: the instruction, `SREG`, the next `PC`. -/
theorem test_named_branches :
    ([(Instr.breq 5#7, 0x02#8, 0x106#22), (.brne 126#7, 0x00#8, 0x0FF#22),
    (.brcs 5#7, 0x01#8, 0x106#22), (.brcc 5#7, 0x01#8, 0x101#22), (.brsh 5#7, 0x00#8, 0x106#22),
    (.brlo 5#7, 0x00#8, 0x101#22), (.brmi 5#7, 0x04#8, 0x106#22), (.brpl 5#7, 0x04#8, 0x101#22),
    (.brge 5#7, 0x0C#8, 0x106#22), (.brlt 5#7, 0x14#8, 0x106#22), (.brhs 5#7, 0x20#8, 0x106#22),
    (.brhc 5#7, 0x00#8, 0x106#22), (.brts 5#7, 0x40#8, 0x106#22), (.brtc 5#7, 0x40#8, 0x101#22),
    (.brvs 5#7, 0x08#8, 0x106#22), (.brvc 5#7, 0x00#8, 0x106#22), (.brie 5#7, 0x80#8, 0x106#22),
    (.brid 5#7, 0x00#8, 0x106#22)].all
      fun x => answers (exec x.1 (bench .t16 [] x.2.1)) (fun t => t.pc == x.2.2 && t.sreg == x.2.1)) = true := by
  decide

/-- `break` -/
theorem test_brk :
    runs (bench .t16 [] 0x00#8) 0x9598 (fun t => t.pc == 0x101#22 && t.sreg == 0x00#8 &&
    t.mode == .stopped) = true := by decide

/-- `nop` -/
theorem test_nop :
    runs (bench .t16 [] 0x00#8) 0x0000 (fun t => t.pc == 0x101#22 &&
    t.sreg == 0x00#8) = true := by decide

/-- `sleep` -/
theorem test_sleep :
    runs (bench .t16 [] 0x00#8) 0x9588 (fun t => t.pc == 0x101#22 && t.sreg == 0x00#8 &&
    t.mode == .sleeping) = true := by decide

/-- `wdr` -/
theorem test_wdr :
    runs (bench .t16 [] 0x00#8) 0x95A8 (fun t => t.pc == 0x101#22 &&
    t.sreg == 0x00#8) = true := by decide

/-- `mov r1, r20` -/
theorem test_mov :
    runs (bench .t16 [(20, 0xA5#8)] 0x00#8) 0x2E14 (fun t => t.pc == 0x101#22 && t.sreg == 0x00#8 &&
    readReg t 1 == 0xA5#8) = true := by decide

/-- `movw r24, r30` -/
theorem test_movw :
    runs (bench .t16 [(30, 0x34#8), (31, 0x12#8)] 0x00#8) 0x01CF (fun t => t.pc == 0x101#22 &&
    t.sreg == 0x00#8 && readReg t 24 == 0x34#8 && readReg t 25 == 0x12#8) = true := by decide

/-- `ldi r16, 0x5A` -/
theorem test_ldi :
    runs (bench .t16 [] 0x00#8) 0xE50A (fun t => t.pc == 0x101#22 && t.sreg == 0x00#8 &&
    readReg t 16 == 0x5A#8) = true := by decide

/-- `lds r16, 0x0123` -/
theorem test_lds :
    runs { bench .t16 [] 0x00#8 with sram := [(0x0123, 0x77#8)] }
    0x01239100 (fun t => t.pc == 0x102#22 && t.sreg == 0x00#8 &&
    readReg t 16 == 0x77#8) = true := by decide

/-- `ld r5, X` -/
theorem test_ldX :
    runs { bench .t16 [(26, 0x00#8), (27, 0x02#8)] 0x00#8 with sram := [(0x0200, 0x99#8)] }
    0x905C (fun t => t.pc == 0x101#22 && t.sreg == 0x00#8 && readReg t 5 == 0x99#8) = true := by decide

/-- `ld r5, X+` -/
theorem test_ldXInc :
    runs { bench .t16 [(26, 0xFF#8), (27, 0x02#8)] 0x00#8 with sram := [(0x02FF, 0x11#8)] }
    0x905D (fun t => t.pc == 0x101#22 && t.sreg == 0x00#8 && readReg t 5 == 0x11#8 &&
    readReg t 26 == 0x00#8 && readReg t 27 == 0x03#8) = true := by decide

/-- `ld r5, -X` -/
theorem test_ldXDec :
    runs { bench .t16 [(26, 0x00#8), (27, 0x03#8)] 0x00#8 with sram := [(0x02FF, 0x11#8)] }
    0x905E (fun t => t.pc == 0x101#22 && t.sreg == 0x00#8 && readReg t 5 == 0x11#8 &&
    readReg t 26 == 0xFF#8 && readReg t 27 == 0x02#8) = true := by decide

/-- `ld r5, Y` -/
theorem test_ldY :
    answers (exec (.ldY 5) { bench .t16 [(28, 0x00#8), (29, 0x02#8)] 0x00#8 with sram := [(0x0200, 0x99#8)] })
    (fun t => t.pc == 0x101#22 && t.sreg == 0x00#8 && readReg t 5 == 0x99#8) = true := by decide

/-- `ld r0, Y+` -/
theorem test_ldYInc :
    runs { bench .t16 [(28, 0x00#8), (29, 0x02#8)] 0x00#8 with sram := [(0x0200, 0x42#8)] }
    0x9009 (fun t => t.pc == 0x101#22 && t.sreg == 0x00#8 && readReg t 0 == 0x42#8 &&
    readReg t 28 == 0x01#8) = true := by decide

/-- `ld r0, -Y` -/
theorem test_ldYDec :
    runs { bench .t16 [(28, 0x01#8), (29, 0x02#8)] 0x00#8 with sram := [(0x0200, 0x42#8)] }
    0x900A (fun t => t.pc == 0x101#22 && t.sreg == 0x00#8 && readReg t 0 == 0x42#8 &&
    readReg t 28 == 0x00#8) = true := by decide

/-- `ldd r4, Y+63` -/
theorem test_lddY :
    runs { bench .t16 [(28, 0x00#8), (29, 0x02#8)] 0x00#8 with sram := [(0x023F, 0x5C#8)] }
    0xAC4F (fun t => t.pc == 0x101#22 && t.sreg == 0x00#8 && readReg t 4 == 0x5C#8) = true := by decide

/-- `ld r5, Z` -/
theorem test_ldZ :
    answers (exec (.ldZ 5) { bench .t16 [(30, 0x00#8), (31, 0x02#8)] 0x00#8 with sram := [(0x0200, 0x99#8)] })
    (fun t => t.pc == 0x101#22 && t.sreg == 0x00#8 && readReg t 5 == 0x99#8) = true := by decide

/-- `ld r0, Z+` -/
theorem test_ldZInc :
    runs { bench .t16 [(30, 0x00#8), (31, 0x02#8)] 0x00#8 with sram := [(0x0200, 0x42#8)] }
    0x9001 (fun t => t.pc == 0x101#22 && t.sreg == 0x00#8 && readReg t 0 == 0x42#8 &&
    readReg t 30 == 0x01#8) = true := by decide

/-- `ld r0, -Z` -/
theorem test_ldZDec :
    runs { bench .t16 [(30, 0x01#8), (31, 0x02#8)] 0x00#8 with sram := [(0x0200, 0x42#8)] }
    0x9002 (fun t => t.pc == 0x101#22 && t.sreg == 0x00#8 && readReg t 0 == 0x42#8 &&
    readReg t 30 == 0x00#8) = true := by decide

/-- `ldd r4, Z+1` -/
theorem test_lddZ :
    runs { bench .t16 [(30, 0x00#8), (31, 0x02#8)] 0x00#8 with sram := [(0x0201, 0x5C#8)] }
    0x8041 (fun t => t.pc == 0x101#22 && t.sreg == 0x00#8 && readReg t 4 == 0x5C#8) = true := by decide

/-- `sts 0x0123, r16` -/
theorem test_sts :
    runs (bench .t16 [(16, 0xAB#8)] 0x00#8) 0x01239300 (fun t => t.pc == 0x102#22 &&
    t.sreg == 0x00#8 && sramByte t.sram 0x0123 == 0xAB#8) = true := by decide

/-- `st X, r5` -/
theorem test_stX :
    runs (bench .t16 [(26, 0x00#8), (27, 0x02#8), (5, 0x3C#8)] 0x00#8)
    0x925C (fun t => t.pc == 0x101#22 && t.sreg == 0x00#8 &&
    sramByte t.sram 0x0200 == 0x3C#8) = true := by decide

/-- `st X+, r5` -/
theorem test_stXInc :
    runs (bench .t16 [(26, 0xFF#8), (27, 0x02#8), (5, 0x3C#8)] 0x00#8)
    0x925D (fun t => t.pc == 0x101#22 && t.sreg == 0x00#8 && readReg t 26 == 0x00#8 &&
    readReg t 27 == 0x03#8 && sramByte t.sram 0x02FF == 0x3C#8) = true := by decide

/-- `st -X, r5` -/
theorem test_stXDec :
    runs (bench .t16 [(26, 0x00#8), (27, 0x03#8), (5, 0x3C#8)] 0x00#8)
    0x925E (fun t => t.pc == 0x101#22 && t.sreg == 0x00#8 && readReg t 26 == 0xFF#8 &&
    readReg t 27 == 0x02#8 && sramByte t.sram 0x02FF == 0x3C#8) = true := by decide

/-- `st Y, r5` -/
theorem test_stY :
    answers (exec (.stY 5) (bench .t16 [(28, 0x00#8), (29, 0x02#8), (5, 0x3C#8)] 0x00#8))
    (fun t => t.pc == 0x101#22 && t.sreg == 0x00#8 &&
    sramByte t.sram 0x0200 == 0x3C#8) = true := by decide

/-- `st Y+, r5` -/
theorem test_stYInc :
    runs (bench .t16 [(28, 0x00#8), (29, 0x02#8), (5, 0x3C#8)] 0x00#8)
    0x9259 (fun t => t.pc == 0x101#22 && t.sreg == 0x00#8 && readReg t 28 == 0x01#8 &&
    sramByte t.sram 0x0200 == 0x3C#8) = true := by decide

/-- `st -Y, r5` -/
theorem test_stYDec :
    runs (bench .t16 [(28, 0x00#8), (29, 0x03#8), (5, 0x3C#8)] 0x00#8)
    0x925A (fun t => t.pc == 0x101#22 && t.sreg == 0x00#8 && readReg t 28 == 0xFF#8 &&
    readReg t 29 == 0x02#8 && sramByte t.sram 0x02FF == 0x3C#8) = true := by decide

/-- `std Y+2, r5` -/
theorem test_stdY :
    runs (bench .t16 [(28, 0x00#8), (29, 0x02#8), (5, 0x3C#8)] 0x00#8)
    0x825A (fun t => t.pc == 0x101#22 && t.sreg == 0x00#8 &&
    sramByte t.sram 0x0202 == 0x3C#8) = true := by decide

/-- `st Z, r5` -/
theorem test_stZ :
    answers (exec (.stZ 5) (bench .t16 [(30, 0x00#8), (31, 0x02#8), (5, 0x3C#8)] 0x00#8))
    (fun t => t.pc == 0x101#22 && t.sreg == 0x00#8 &&
    sramByte t.sram 0x0200 == 0x3C#8) = true := by decide

/-- `st Z+, r5` -/
theorem test_stZInc :
    runs (bench .t16 [(30, 0x00#8), (31, 0x02#8), (5, 0x3C#8)] 0x00#8)
    0x9251 (fun t => t.pc == 0x101#22 && t.sreg == 0x00#8 && readReg t 30 == 0x01#8 &&
    sramByte t.sram 0x0200 == 0x3C#8) = true := by decide

/-- `st -Z, r5` -/
theorem test_stZDec :
    runs (bench .t16 [(30, 0x00#8), (31, 0x03#8), (5, 0x3C#8)] 0x00#8)
    0x9252 (fun t => t.pc == 0x101#22 && t.sreg == 0x00#8 && readReg t 30 == 0xFF#8 &&
    readReg t 31 == 0x02#8 && sramByte t.sram 0x02FF == 0x3C#8) = true := by decide

/-- `std Z+63, r5` -/
theorem test_stdZ :
    runs (bench .t16 [(30, 0x00#8), (31, 0x02#8), (5, 0x3C#8)] 0x00#8)
    0xAE57 (fun t => t.pc == 0x101#22 && t.sreg == 0x00#8 &&
    sramByte t.sram 0x023F == 0x3C#8) = true := by decide

/-- `lpm` -/
theorem test_lpm :
    runs { bench .t16 [(30, 0x01#8), (31, 0x04#8)] 0x00#8 with flash := [(0x0400, 0xEF#8), (0x0401, 0xBE#8)] }
    0x95C8 (fun t => t.pc == 0x101#22 && t.sreg == 0x00#8 && readReg t 0 == 0xBE#8) = true := by decide

/-- `lpm r16, Z` -/
theorem test_lpmZ :
    runs { bench .t16 [(30, 0x00#8), (31, 0x04#8)] 0x00#8 with flash := [(0x0400, 0xEF#8), (0x0401, 0xBE#8)] }
    0x9104 (fun t => t.pc == 0x101#22 && t.sreg == 0x00#8 && readReg t 16 == 0xEF#8) = true := by decide

/-- `lpm r16, Z+` -/
theorem test_lpmZInc :
    runs { bench .t16 [(30, 0x01#8), (31, 0x04#8)] 0x00#8 with flash := [(0x0400, 0xEF#8), (0x0401, 0xBE#8)] }
    0x9105 (fun t => t.pc == 0x101#22 && t.sreg == 0x00#8 && readReg t 16 == 0xBE#8 &&
    readReg t 30 == 0x02#8) = true := by decide

/-- `elpm` -/
theorem test_elpm :
    runs { bench .t22 [(30, 0x01#8), (31, 0x00#8)] 0x00#8 with rampz := 0x01#8, flash := [(0x10000, 0xFE#8), (0x10001, 0xCA#8)] }
    0x95D8 (fun t => t.pc == 0x101#22 && t.sreg == 0x00#8 && readReg t 0 == 0xCA#8) = true := by decide

/-- `elpm r16, Z` -/
theorem test_elpmZ :
    runs { bench .t22 [(30, 0x00#8), (31, 0x00#8)] 0x00#8 with rampz := 0x01#8, flash := [(0x10000, 0xFE#8), (0x10001, 0xCA#8)] }
    0x9106 (fun t => t.pc == 0x101#22 && t.sreg == 0x00#8 && readReg t 16 == 0xFE#8) = true := by decide

/-- `elpm r16, Z+` -/
theorem test_elpmZInc :
    runs { bench .t22 [(30, 0xFF#8), (31, 0xFF#8)] 0x00#8 with rampz := 0x01#8, flash := [(0x1FFFE, 0xFE#8), (0x1FFFF, 0xCA#8)] }
    0x9107 (fun t => t.pc == 0x101#22 && t.sreg == 0x00#8 && readReg t 16 == 0xCA#8 &&
    readReg t 30 == 0x00#8 && readReg t 31 == 0x00#8 && t.rampz == 0x02#8) = true := by decide

theorem test_spm :
    step ((bench .t16 [] 0x00#8).withFetchWord 16 0x95E8) = .fault (.unmodelled 0x100#22) := by
  rfl

/-- `in r0, 0x3F` -/
theorem test_inp :
    runs (bench .t16 [] 0x83#8) 0xB60F (fun t => t.pc == 0x101#22 && t.sreg == 0x83#8 &&
    readReg t 0 == 0x83#8) = true := by decide

/-- `out 0x3D, r16` -/
theorem test_out :
    runs { bench .t16 [(16, 0x7F#8)] 0x00#8 with sp := 0x08FF#16 } 0xBF0D (fun t => t.pc == 0x101#22 &&
    t.sreg == 0x00#8 && t.sp == 0x087F#16) = true := by decide

/-- `out 0x3F, r16` -/
theorem test_out_sreg :
    runs (bench .t16 [(16, 0x01#8)] 0x00#8) 0xBF0F (fun t => t.pc == 0x101#22 &&
    t.sreg == 0x01#8) = true := by decide

/-- `push r16` -/
theorem test_push :
    runs { bench .t16 [(16, 0xAB#8)] 0x00#8 with sp := 0x08FF#16 } 0x930F (fun t => t.pc == 0x101#22 &&
    t.sreg == 0x00#8 && sramByte t.sram 0x08FF == 0xAB#8 && t.sp == 0x08FE#16) = true := by decide

/-- `pop r17` -/
theorem test_pop :
    runs { bench .t16 [] 0x00#8 with sp := 0x08FE#16, sram := [(0x08FF, 0xAB#8)] }
    0x911F (fun t => t.pc == 0x101#22 && t.sreg == 0x00#8 && readReg t 17 == 0xAB#8 &&
    t.sp == 0x08FF#16) = true := by decide

/-- `lsl r16` -/
theorem test_lsl :
    answers (exec (.lsl 16) (bench .t16 [(16, 0xC8#8)] 0x00#8)) (fun t => t.pc == 0x101#22 &&
    t.sreg == 0x35#8 && readReg t 16 == 0x90#8) = true := by decide

/-- `lsr r16` -/
theorem test_lsr :
    runs (bench .t16 [(16, 0x81#8)] 0x00#8) 0x9506 (fun t => t.pc == 0x101#22 && t.sreg == 0x19#8 &&
    readReg t 16 == 0x40#8) = true := by decide

/-- `rol r17` -/
theorem test_rol :
    answers (exec (.rol 17) (bench .t16 [(17, 0x80#8)] 0x01#8)) (fun t => t.pc == 0x101#22 &&
    t.sreg == 0x19#8 && readReg t 17 == 0x01#8) = true := by decide

/-- `ror r17` -/
theorem test_ror :
    runs (bench .t16 [(17, 0x01#8)] 0x01#8) 0x9517 (fun t => t.pc == 0x101#22 && t.sreg == 0x15#8 &&
    readReg t 17 == 0x80#8) = true := by decide

/-- `asr r16` -/
theorem test_asr :
    runs (bench .t16 [(16, 0x81#8)] 0x00#8) 0x9505 (fun t => t.pc == 0x101#22 && t.sreg == 0x15#8 &&
    readReg t 16 == 0xC0#8) = true := by decide

/-- `swap r16` -/
theorem test_swap :
    runs (bench .t16 [(16, 0xA5#8)] 0x00#8) 0x9502 (fun t => t.pc == 0x101#22 && t.sreg == 0x00#8 &&
    readReg t 16 == 0x5A#8) = true := by decide

/-- `bset 6` -/
theorem test_bset :
    runs (bench .t16 [] 0x00#8) 0x9468 (fun t => t.pc == 0x101#22 &&
    t.sreg == 0x40#8) = true := by decide

/-- `bclr 1` -/
theorem test_bclr :
    runs (bench .t16 [] 0x03#8) 0x9498 (fun t => t.pc == 0x101#22 &&
    t.sreg == 0x01#8) = true := by decide

/-- `sbi 0x05, 3` -/
theorem test_sbi :
    runs { bench .t16 [] 0x00#8 with ioInputs := [0x41#8] } 0x9A2B (fun t => t.pc == 0x101#22 &&
    t.sreg == 0x00#8 && t.ioTrace == [.write 0x05 0x49#8, .read 0x05 0x41#8]) = true := by decide

/-- `cbi 0x05, 0` -/
theorem test_cbi :
    runs { bench .t16 [] 0x00#8 with ioInputs := [0x41#8] } 0x9828 (fun t => t.pc == 0x101#22 &&
    t.sreg == 0x00#8 && t.ioTrace == [.write 0x05 0x40#8, .read 0x05 0x41#8]) = true := by decide

/-- `bst r5, 4` -/
theorem test_bst :
    runs (bench .t16 [(5, 0x10#8)] 0x00#8) 0xFA54 (fun t => t.pc == 0x101#22 &&
    t.sreg == 0x40#8) = true := by decide

/-- `bld r6, 0` -/
theorem test_bld :
    runs (bench .t16 [(6, 0xF0#8)] 0x40#8) 0xF860 (fun t => t.pc == 0x101#22 && t.sreg == 0x40#8 &&
    readReg t 6 == 0xF1#8) = true := by decide

/-- Rows 121 to 136: the instruction, `SREG`, the next `SREG`. -/
theorem test_named_flags :
    ([(Instr.sec, 0x00#8, 0x01#8), (.clc, 0x01#8, 0x00#8), (.sen, 0x00#8, 0x04#8),
    (.cln, 0x04#8, 0x00#8), (.sez, 0x00#8, 0x02#8), (.clz, 0x02#8, 0x00#8), (.sei, 0x00#8, 0x80#8),
    (.cli, 0x80#8, 0x00#8), (.ses, 0x00#8, 0x10#8), (.cls, 0x14#8, 0x04#8), (.sev, 0x00#8, 0x08#8),
    (.clv, 0x08#8, 0x00#8), (.set, 0x00#8, 0x40#8), (.clt, 0x40#8, 0x00#8), (.seh, 0x00#8, 0x20#8),
    (.clh, 0x20#8, 0x00#8)].all
      fun x => answers (exec x.1 (bench .t16 [] x.2.1)) (fun t => t.sreg == x.2.2 && t.pc == 0x101#22)) = true := by
  decide

/-! ## For each obligation with hypotheses, states and operands that meet them -/

/-- The outcome is this fault. -/
def faults (o : Result) (f : Fault) : Bool :=
  match o with
  | .next _ => false
  | .fault g => g == f
  | .refused _ => false

/-- A bench with its stack pointer moved. -/
def benchSp (c : Config) (sp : Word) : State := { bench c [] 0x00#8 with sp := sp }

/-- A part of 16 K words with a 16-bit `PC`, and no optional group. -/
def bare : Config :=
  { Config.t16 with
    flashWords := 0x4000
    groups := ⟨false, false, false, false, false, false, false, false, false, false, false, false, false, false⟩ }

/-- A device whose parameters take the other choices of R190, R192, R193 and R243. -/
def other : Config :=
  { Config.t16 with breakMode := .nop, sleepModel := .nop, wdtModel := .device, spmModel := .device }

/-- Stack room at both ends of SRAM, for two and three bytes. -/
theorem test_stack_room :
    StackRoom (benchSp .t16 0x08FF#16) 2 ∧ StackRoom (benchSp .t16 0x0101#16) 2 ∧
    StackRoom (benchSp .t22 0x21FF#16) 3 ∧ StackRoom (benchSp .t22 0x0202#16) 3 ∧
    StackRoom (benchSp .t16 0x0100#16) 1 := by
  unfold StackRoom; decide

/-- Bytes to pop at both ends of SRAM. -/
theorem test_stack_holds :
    StackHolds (benchSp .t16 0x08FD#16) 2 ∧ StackHolds (benchSp .t16 0x00FF#16) 2 ∧
    StackHolds (benchSp .t22 0x21FC#16) 3 ∧ StackHolds (benchSp .t22 0x01FF#16) 3 ∧
    StackHolds (benchSp .t16 0x08FE#16) 1 := by
  unfold StackHolds
  refine ⟨?_, ?_, ?_, ?_, ?_⟩ <;> (intro k h1 h2; interval_cases k <;> decide)

theorem test_wf_configs : Config.t16.wf ∧ Config.t22.wf ∧ bare.wf ∧ other.wf := by decide

/-- Every instruction's group is present on the bench of `T22`. -/
theorem test_present (i : Instr) : Present i (bench .t22 [] 0x00#8) := by
  cases h : groupsOf (bench .t22 [] 0x00#8).cfg i with
  | nil => exact .inl h
  | cons g rest => exact .inr ⟨g, by simp [h], by cases g <;> rfl⟩

theorem test_witness_SixteenBitSubtract :
    (bench .t16 [] 0x00#8).cfg.wf ∧ (16 : Reg) ≠ 17 ∧ (16 : Reg) ≠ 19 := by decide

/-- The group hypotheses of `WordImmediateResults`, `MultiplyResults`, `FractionalMultiplyResults`, `MoveResults`,
`JumpResults`, `PointerLoadResults`, `PointerStoreResults`, `LpmResults`, `ElpmResults`, `SpmResults`,
`PushPopResults`. -/
theorem test_witness_groups :
    [Group.adiwSbiw, .mul, .ijmpIcall, .eijmpEicall, .jmpCall, .breakGroup, .movw, .ldStVariants, .lpmVariants,
      .elpm, .spm, .pushPop].all (bench .t22 [] 0x00#8).cfg.has = true := by decide

/-- A call completes from a state that meets the hypotheses of `CallResults` and `CallThenReturn`. -/
theorem test_witness_CallThenReturn :
    (benchSp .t22 0x21FF#16).cfg.wf ∧ isCall (.call 0x12000#22) = true ∧
    ∃ t, exec (.call 0x12000#22) (benchSp .t22 0x21FF#16) = .next t := ⟨by decide, rfl, _, rfl⟩

/-- The push of a return address succeeds in SRAM and onto the registers, and faults above `RAM_END`. -/
theorem test_witness_CallResults :
    (∃ u, pushPc 0x101 (benchSp .t16 0x08FF#16) = .ok u) ∧ (∃ u, pushPc 0x101 (benchSp .t16 0x0001#16) = .ok u) ∧
    (∃ f, pushPc 0x101 (benchSp .t16 0x0900#16) = .error f) := ⟨⟨_, rfl⟩, ⟨_, rfl⟩, _, rfl⟩

/-- The pop of a return address succeeds in SRAM, and faults where it runs above `RAM_END`. -/
theorem test_witness_ReturnResults :
    (∃ n u, popPc (benchSp .t16 0x08FD#16) = .ok (n, u)) ∧ (∃ f, popPc (benchSp .t16 0x08FE#16) = .error f) :=
  ⟨⟨_, _, rfl⟩, _, rfl⟩

/-- The three cases of a skip: the last has its next word beyond program memory. -/
theorem test_witness_SkipResults :
    let s := bench .t16 [(5, 0x08#8)] 0x00#8
    let e := { bench bare [(5, 0x08#8)] 0x00#8 with pc := 0x3FFF#22 }
    (!bitAt (readReg s 5) 3) = false ∧ bitAt (readReg s 5) 3 = true ∧
    (s.pc.toNat + 1) % 2 ^ s.cfg.pcBits < s.cfg.flashWords ∧
    e.cfg.flashWords ≤ (e.pc.toNat + 1) % 2 ^ e.cfg.pcBits := by decide

theorem test_witness_CompareThenBranch :
    (bench .t16 [] 0x00#8).cfg.wf ∧ ∃ t, exec (.cp 16 17) (bench .t16 [] 0x00#8) = .next t :=
  ⟨by decide, _, rfl⟩

theorem test_witness_ControlResults :
    (bench .t16 [] 0x00#8).cfg.breakMode = .stop ∧ (bench .t16 [] 0x00#8).cfg.sleepModel = .sleep ∧
    (bench .t16 [] 0x00#8).cfg.wdtModel = .absent ∧ (bench other [] 0x00#8).cfg.breakMode = .nop ∧
    (bench other [] 0x00#8).cfg.sleepModel = .nop ∧ (bench other [] 0x00#8).cfg.wdtModel = .device ∧
    (bench .t16 [] 0x00#8).cfg.has .breakGroup = true ∧ (bench other [] 0x00#8).cfg.has .breakGroup = true := by
  decide

/-- The regions of `DataSpaceMap` at their boundaries, on `T22`, for what `T16` lacks on `T16`, and where SRAM starts at
0x0060, the least R7 allows. -/
theorem test_witness_DataSpaceMap :
    [0x0000#16, 0x001F#16, 0x0020#16, 0x005A#16, 0x005B#16, 0x005C#16, 0x005D#16, 0x005E#16, 0x005F#16, 0x0060#16,
      0x01FF#16, 0x0200#16, 0x21FF#16, 0x2200#16, 0xFFFF#16].map (regionOf .t22) =
    [.register 0, .register 31, .device 0x00, .device 0x3A, .rampz, .eind, .spl, .sph, .sreg, .device 0x40,
      .device 0x1DF, .sram, .sram, .absent, .absent] ∧
    [0x005B#16, 0x005C#16, 0x00FF#16, 0x0100#16, 0x08FF#16, 0x0900#16].map (regionOf .t16) =
    [.device 0x3B, .device 0x3C, .device 0xDF, .sram, .sram, .absent] ∧
    ({ Config.t16 with ramStart := 0x60 } : Config).wf ∧
    [0x005F#16, 0x0060#16].map (regionOf { Config.t16 with ramStart := 0x60 }) = [.sreg, .sram] := by decide

/-- Writes to the first and last register, `SREG`, and the first and last byte of SRAM complete; the other address is no
device's. -/
theorem test_witness_WriteThenRead :
    ([0x0000#16, 0x001F#16, 0x005F#16, 0x0200#16, 0x21FF#16].all fun a =>
      match memWrite a 0x55#8 (bench .t22 [] 0x00#8) with | .ok _ => true | .error _ => false) = true ∧
    regionOf (bench .t22 [] 0x00#8).cfg 0x0201#16 = .sram ∧ (0x0200#16 : Word) ≠ 0x0201#16 := by decide

/-- A push that is written, one above `RAM_END`, and a pop above `RAM_END`. -/
theorem test_witness_PushAndPop :
    (∃ u, memWrite (readSp (benchSp .t16 0x08FF#16)) 0x55#8 (benchSp .t16 0x08FF#16) = .ok u) ∧
    (benchSp .t16 0x0900#16).cfg.ramEnd < (readSp (benchSp .t16 0x0900#16)).toNat ∧
    (benchSp .t16 0x08FF#16).cfg.ramEnd <
      ((readSp (benchSp .t16 0x08FF#16) + 1#16) &&& (benchSp .t16 0x08FF#16).cfg.spMask).toNat :=
  ⟨⟨_, rfl⟩, by decide⟩

/-- `PUSH` and `POP` at both ends: onto SRAM, and above it. -/
theorem test_witness_PushPopResults :
    (∃ u, push 0x55#8 (benchSp .t16 0x08FF#16) = .ok u) ∧ (∃ f, push 0x55#8 (benchSp .t16 0x0900#16) = .error f) ∧
    (∃ v u, pop (benchSp .t16 0x08FE#16) = .ok (v, u)) ∧ (∃ f, pop (benchSp .t16 0x08FF#16) = .error f) :=
  ⟨⟨_, rfl⟩, ⟨_, rfl⟩, ⟨_, _, rfl⟩, _, rfl⟩

theorem test_witness_PushPcThenPopPc : 0x12345 < 2 ^ (benchSp .t22 0x21FF#16).cfg.pcBits := by decide

/-- `LoadResults` and `StoreResults` at the ends of the data space that exists: `LDS` and `STS` at 0x0000 and at `RAM_END`, a
displaced access that wraps to 0x0000 from 0xFFC1, and the first and last byte of SRAM. -/
theorem test_witness_LoadStoreResults :
    let s := bench .t22 [(28, 0xC1#8), (29, 0xFF#8)] 0x00#8
    (Instr.lddY 4 63#6, 0x0000#16, 1) ∈ plainLoads s 4 0x21FF#16 63#6 ∧
    (Instr.lds 4 0x21FF#16, 0x21FF#16, 2) ∈ plainLoads s 4 0x21FF#16 63#6 ∧
    (Instr.stdY 63#6 4, 0x0000#16, 1) ∈ plainStores s 4 0x0200#16 63#6 ∧
    (Instr.sts 0x0200#16 4, 0x0200#16, 2) ∈ plainStores s 4 0x0200#16 63#6 ∧
    (0x21FF#16 : Word).toNat ≤ s.cfg.ramEnd ∧ regionOf s.cfg 0x0200#16 = .sram ∧
    regionOf s.cfg 0x21FF#16 = .sram := by decide

/-- `PointerLoadResults` and `PointerStoreResults`: the pointer and the pointer less one at the ends of SRAM. -/
theorem test_witness_PointerResults :
    let s := bench .t22 [(26, 0xFF#8), (27, 0x21#8), (28, 0x00#8), (29, 0x22#8), (30, 0x00#8), (31, 0x02#8)] 0x00#8
    Pointer.x.holds 5 = false ∧ Pointer.y.holds 5 = false ∧ Pointer.z.holds 5 = false ∧
    regionOf s.cfg (readPointer s .x) = .sram ∧ regionOf s.cfg (readPointer s .z) = .sram ∧
    regionOf s.cfg (readPointer s .y - 1#16) = .sram ∧
    (readPointer s .x).toNat ≤ s.cfg.ramEnd ∧ (readPointer s .y - 1#16).toNat ≤ s.cfg.ramEnd := by decide

/-- D17: `st -X, r5` with `X` = 0x001B or 0x001C stores onto R26 or R27, and the pointer update, written after the store,
is what stays. -/
theorem test_st_pre_decrement_onto_its_pointer :
    answers (exec (.stXDec 5) (bench .t16 [(5, 0x3C#8), (26, 0x1B#8)] 0x00#8))
      (fun t => readReg t 26 == 0x1A#8 && readReg t 27 == 0x00#8) = true ∧
    answers (exec (.stXDec 5) (bench .t16 [(5, 0x3C#8), (26, 0x1C#8)] 0x00#8))
      (fun t => readReg t 26 == 0x1B#8 && readReg t 27 == 0x00#8) = true := by decide

theorem test_witness_UndefinedOperandsFault :
    [26, 27].all Pointer.x.holds = true ∧ [28, 29].all Pointer.y.holds = true ∧
    [30, 31].all Pointer.z.holds = true := by decide

/-- `LPM` and `ELPM` at the last byte of program memory. -/
theorem test_witness_LpmElpmResults :
    let l := bench .t22 [(30, 0xFF#8), (31, 0xFF#8)] 0x00#8
    let e := { bench .t22 [(30, 0xFF#8), (31, 0xFF#8)] 0x00#8 with rampz := 0x7F#8 }
    (readPointer l .z).toNat / 2 < l.cfg.flashWords ∧
    ((e.rampz &&& e.cfg.rampzMask).toNat * 65536 + (readPointer e .z).toNat) / 2 + 1 = e.cfg.flashWords := by decide

theorem test_witness_SpmResults :
    (bench .t16 [] 0x00#8).cfg.spmModel = .refuse ∧ (bench other [] 0x00#8).cfg.spmModel = .device ∧
    Memory.flashWf (bench other [] 0x00#8).cfg (bench other [] 0x00#8).flash := by decide

/-- Every optional instruction's group is absent from the bare part. -/
theorem test_witness_AbsentGroupFaults (g : Group) : (bench bare [] 0x00#8).cfg.has g = false := by
  cases g <;> rfl

/-- The words of `LD` and `ST` by plain `Y` and `Z` run with `LDD_STD`; with `LD_ST_VARIANTS` alone they run where R217 is followed
and fault where R90 (2) is (log 24); without `LDD_STD` there is no displacement of 1. -/
theorem test_plain_load_groups :
    let v := bench { bare with groups := { bare.groups with ldStVariants := true } } [(29, 0x02#8)] 0x00#8
    let w := { v with cfg := { v.cfg with plainWithoutLdd := false } }
    let l := bench { bare with groups := { bare.groups with lddStd := true } } [(29, 0x02#8)] 0x00#8
    runs v 0x8058 (fun t => t.pc == 0x101#22) = true ∧ runs l 0x8058 (fun t => t.pc == 0x101#22) = true ∧
    runs v 0x8258 (fun t => t.pc == 0x101#22) = true ∧ runs l 0x8258 (fun t => t.pc == 0x101#22) = true ∧
    Present (.ldY 5) v ∧ Present (.lddY 5 0#6) v ∧ Present (.ldY 5) l ∧
    faults (exec (.ldY 5) w) (.unimplemented .lddStd 0x8058#16 0x100#22) = true ∧
    faults (exec (.lddY 5 1#6) v) (.unimplemented .lddStd 0x8059#16 0x100#22) = true := by
  unfold Present; decide

/-- `AccessFaults`: the first address above `RAM_END`, the first word beyond `FLASH_WORDS`. -/
theorem test_witness_AccessFaults :
    let s := bench .t16 [(26, 0x00#8), (27, 0x09#8), (28, 0x01#8), (29, 0x09#8), (30, 0x00#8), (31, 0x80#8)] 0x00#8
    let p := { s with cfg := { Config.t16 with flashWords := 0x4000 } }
    let e := { bench { Config.t22 with flashWords := 0x10000 } [] 0x00#8 with rampz := 0x02#8 }
    s.cfg.wf ∧ p.cfg.wf ∧ e.cfg.wf ∧ s.cfg.ramEnd < (readPointer s .x).toNat ∧
    s.cfg.ramEnd < (readPointer s .y - 1#16).toNat ∧ p.cfg.flashWords ≤ (readPointer p .z).toNat / 2 ∧
    e.cfg.flashWords ≤ extendedZ e / 2 := by decide

/-- A bench with interrupts enabled and vectors 3 and 7 requested. -/
def benchIrq : State := { bench .t22 [] 0x80#8 with requests := [3, 7] }

/-- `InterruptSampling`, `InterruptEntrySavesOnlyPc`: a request to take, and one that each gate holds back. -/
theorem test_witness_InterruptSampling :
    takeBoundary benchIrq = (false, benchIrq) ∧ interruptToTake benchIrq = some 3 ∧
    benchIrq.mode ≠ .stopped ∧ readFlag benchIrq .i = true ∧ benchIrq.irqInhibit = false ∧
    interruptToTake { benchIrq with irqInhibit := true } = none ∧
    interruptToTake { benchIrq with mode := .stopped } = none ∧
    interruptToTake { benchIrq with sreg := 0x00#8 } = none ∧
    interruptToTake { benchIrq with requests := [] } = none := by decide

/-- `InterruptEntrySavesOnlyPc`: the pushes succeed in SRAM, onto the registers and across `SREG`, `SPH` and `SPL`, and fault
above `RAM_END`. -/
theorem test_witness_InterruptEntrySavesOnlyPc :
    (∃ u, pushPc 0x100 (benchSp .t22 0x21FF#16) = .ok u) ∧ (∃ u, pushPc 0x100 (benchSp .t22 0x0002#16) = .ok u) ∧
    (∃ u, pushPc 0x100 (benchSp .t22 0x005F#16) = .ok u) ∧
    (∃ f, pushPc 0x100 (benchSp .t22 0x2200#16) = .error f) := ⟨⟨_, rfl⟩, ⟨_, rfl⟩, ⟨_, rfl⟩, _, rfl⟩

theorem test_witness_InterruptThenReti :
    benchIrq.cfg.wf ∧ benchIrq.pc.toNat < 2 ^ benchIrq.cfg.pcBits ∧ readFlag benchIrq .i = true ∧
    ∃ t, enterInterrupt 3 benchIrq = .next t := ⟨by decide, by decide, by decide, _, rfl⟩

/-- A step from a state with `irq_inhibit`, a request pending: the word at `PC` is `NOP`, and then `SEI`. -/
theorem test_witness_InhibitDelaysOneInstruction :
    let s := ({ benchIrq with irqInhibit := true } : State).withFetchWord 16 0x0000
    let q := ({ benchIrq with irqInhibit := true, sreg := 0x00#8 } : State).withFetchWord 16 0x9478
    takeBoundary s = (false, s) ∧ s.mode = .running ∧ s.irqInhibit = true ∧
    answers (step s) (fun t => !t.irqInhibit) = true ∧ answers (step q) (fun t => t.irqInhibit) = true := by decide

theorem test_witness_InhibitSetOnlyBySeiAndReti :
    (bench .t16 [] 0x00#8).irqInhibit = false ∧
    answers (exec .sei (bench .t16 [] 0x00#8)) (fun t => t.irqInhibit) = true ∧
    answers (exec .sei (bench .t16 [] 0x80#8)) (fun t => !t.irqInhibit) = true ∧
    answers (exec (.out 0x3F#6 16) (bench .t16 [(16, 0x80#8)] 0x00#8)) (fun t => !t.irqInhibit) = true := by decide

/-- A reset offered at a boundary. -/
theorem test_witness_ResetEventEffect :
    let s := { bench .t22 [] 0x80#8 with env := [⟨true, [5], []⟩] }
    s.cfg.wf ∧ (takeBoundary s).1 = true := by decide

/-- Stopped, and asleep with I = 0, with `irq_inhibit` and a request, and with I = 1 and no request. -/
theorem test_witness_StoppedAndSleeping :
    let s := { bench .t22 [] 0x80#8 with mode := .stopped }
    let q := { bench .t22 [] 0x00#8 with mode := .sleeping }
    let p := { benchIrq with mode := .sleeping, irqInhibit := true }
    let r := { bench .t22 [] 0x80#8 with mode := .sleeping }
    takeBoundary s = (false, s) ∧ s.mode = .stopped ∧ takeBoundary q = (false, q) ∧ q.mode = .sleeping ∧
    readFlag q .i = false ∧ takeBoundary p = (false, p) ∧ p.mode = .sleeping ∧ p.irqInhibit = true ∧
    takeBoundary r = (false, r) ∧ r.mode = .sleeping ∧ readFlag r .i = true ∧ r.requests = [] := by decide

/-- `BREAK` and `SLEEP` change the mode. -/
theorem test_witness_ModeChangesOnlyByBreakAndSleep :
    answers (exec .brk (bench .t16 [] 0x00#8)) (fun t => t.mode == .stopped) = true ∧
    answers (exec .sleep (bench .t16 [] 0x00#8)) (fun t => t.mode == .sleeping) = true := by decide

/-- A word that decodes at `PC`, with no request. -/
theorem test_witness_StepRunsDecoded :
    let s := (bench .t16 [] 0x00#8).withFetchWord 32 0x12349100
    takeBoundary s = (false, s) ∧ interruptToTake s = none ∧ s.mode = .running ∧
    decode [flashWord s.flash (s.pc.toNat % 2 ^ s.cfg.pcBits),
      flashWord s.flash ((s.pc.toNat + 1) % 2 ^ s.cfg.pcBits)] = .ok (.lds 16 0x1234#16, []) := by decide

/-- A reserved word at `PC`, a `PC` beyond program memory, and a `JMP` in its last word, which the bare part lacks too. -/
theorem test_witness_FetchFaults :
    let s := (bench .t16 [] 0x00#8).withFetchWord 16 0x0001
    let e := { bench bare [] 0x00#8 with pc := 0x4000#22 }
    let j := ({ bench bare [] 0x00#8 with pc := 0x3FFF#22 } : State).withFetchWord 32 0x1234940C
    takeBoundary s = (false, s) ∧ interruptToTake s = none ∧
    reservedWord (flashWord s.flash (s.pc.toNat % 2 ^ s.cfg.pcBits)) = true ∧
    takeBoundary e = (false, e) ∧ interruptToTake e = none ∧ e.mode = .running ∧
    e.cfg.flashWords ≤ e.pc.toNat % 2 ^ e.cfg.pcBits ∧
    takeBoundary j = (false, j) ∧ interruptToTake j = none ∧ j.mode = .running ∧
    j.pc.toNat % 2 ^ j.cfg.pcBits < j.cfg.flashWords ∧
    isTwoWord (flashWord j.flash (j.pc.toNat % 2 ^ j.cfg.pcBits)) = true ∧
    j.cfg.flashWords ≤ (j.pc.toNat + 1) % 2 ^ j.cfg.pcBits ∧
    faults (step j) (.badFetch 0x4000) = true := by decide

/-- A state that meets the invariant, with a request and a written byte, and steps. -/
theorem test_witness_StepKeepsInvariant :
    let s := ({ benchIrq with sram := [(0x0200, 0x55#8)], sreg := 0x00#8 } : State).withFetchWord 16 0x0F01
    s.Inv ∧ answers (step s) (fun _ => true) = true :=
  ⟨⟨by decide, by decide, by decide, by decide, by decide, by decide, by decide, by decide, by decide, by decide⟩,
    by decide⟩

/-- `SPM` with `SPM_MODEL` = device and a store both complete. -/
theorem test_witness_ProgramMemoryChangesOnlyBySpm :
    (∃ t, exec .spm (bench other [] 0x00#8) = .next t) ∧
    (∃ t, exec (.sts 0x0200#16 16) (bench .t16 [] 0x00#8) = .next t) := ⟨⟨_, rfl⟩, _, rfl⟩

/-- A store to SRAM, a store onto `SREG`, and `SEI`. -/
theorem test_witness_StoresAndStatusFrame :
    storeAddress (.sts 0x0200#16 16) (bench .t16 [] 0x00#8) = some 0x0200#16 ∧
    isCall (.sts 0x0200#16 16) = false ∧
    answers (exec (.sts 0x0200#16 16) (bench .t16 [(16, 0x55#8)] 0x00#8))
      (fun t => sramAt t 0x0200#16 == 0x55#8) = true ∧
    answers (exec (.out 0x3F#6 16) (bench .t16 [(16, 0x80#8)] 0x00#8)) (fun t => readFlag t .i) = true ∧
    answers (exec .sei (bench .t16 [] 0x00#8)) (fun t => readFlag t .i) = true := by decide

/-- `DecodeOfEncode`, `EncodeOfDecode`, `LengthTest`: instructions of one and two words. -/
theorem test_witness_decoding :
    Instr.wf (.movw 24 30) = true ∧ Instr.wf (.call 0x3FFFFF#22) = true ∧
    decodeOp 0x01CF#16 0x0000#16 = .ok (.movw 24 30) ∧ decodeOp 0x95FF#16 0xFFFF#16 = .ok (.call 0x3FFFFF#22) := by
  decide

end Sys2Proof.Tests
end

section
/-! PROOFS. The opcode map as a partition of the first words (R76, R81, R85). A row's mask and pattern and a
reserved pattern are alike sets of words. Any two of them fix some bit differently, so no word is in two of
them; together they have 65536 words, so every word is in one. -/

namespace Sys2Proof.Encoding

open Sys2Proof.Machine

/-! ## Patterns -/

/-- A set of first words: those whose bits under `mask` are those of `pat`. -/
structure Pattern where
  mask : Word
  pat : Word

/-- The word is in the pattern; the test is the decoder's. -/
def Pattern.Matches (p : Pattern) (w : Word) : Bool := w &&& p.mask == p.pat

/-- The first words of a row of the opcode map. -/
def rowPattern (row : OpRow) : Pattern := ⟨row.mask, row.pat⟩

/-- The words whose `n` bits from bit `lo` up are those of `v`. -/
def fieldIs (lo n v : Nat) : Pattern := ⟨BitVec.ofNat 16 ((2 ^ n - 1) <<< lo), BitVec.ofNat 16 (v <<< lo)⟩

/-- The words that are in both patterns, for patterns that fix different bits. -/
def Pattern.both (p q : Pattern) : Pattern := ⟨p.mask ||| q.mask, p.pat ||| q.pat⟩

/-- Some bit is fixed by both patterns, by each otherwise. -/
def Pattern.conflicts (p q : Pattern) : Bool := q.pat &&& p.mask != p.pat &&& q.mask

/-- How many words are in the pattern: two choices for each bit that the mask leaves open. -/
def Pattern.size (p : Pattern) : Nat := (List.ofFn fun i : Fin 16 => if p.mask.getLsbD i then 1 else 2).prod

/-- The words with a bit set among bits `hi - 1` down to `lo`, by the highest such bit. -/
def someBitSet (lo hi : Nat) : List Pattern := (List.range' lo (hi - lo)).map fun k => fieldIs k (hi - k) 1

/-- The reserved words, clause by clause as R85 lists them; its two exclusions (of `NOP`, of the indirect jumps and
calls) say that a field is not 0. -/
def reservedPatterns : List Pattern :=
  (someBitSet 0 8).map (fieldIs 8 8 0x00).both ++
  [fieldIs 0 4 3, fieldIs 0 4 8, fieldIs 0 4 11].map (fieldIs 9 7 0x48).both ++
  [fieldIs 0 4 3, fieldIs 2 2 1, fieldIs 0 4 8, fieldIs 0 4 11].map (fieldIs 9 7 0x49).both ++
  [fieldIs 0 4 4, fieldIs 0 4 11].map (fieldIs 9 7 0x4A).both ++
  [0x9528, 0x9538, 0x9548, 0x9558, 0x9568, 0x9578, 0x95B8, 0x95F8].map (fieldIs 0 16) ++
  (someBitSet 5 8).map ((fieldIs 9 7 0x4A).both (fieldIs 0 4 9)).both ++
  [(fieldIs 11 5 0x1F).both (fieldIs 3 1 1)]

/-- All patterns of the opcode map, the reserved ones included. -/
def patterns : List Pattern := opTable.map rowPattern ++ reservedPatterns

/-! ## What a pattern matches -/

theorem matches_iff_bits (p : Pattern) (w : Word) :
    p.Matches w = true ↔ ∀ i : Fin 16, (w.getLsbD i && p.mask.getLsbD i) = p.pat.getLsbD i := by
  rw [Pattern.Matches, beq_iff_eq, BitVec.eq_of_getLsbD_eq_iff]
  simp only [BitVec.getLsbD_and]
  exact ⟨fun h i => h i i.isLt, fun h i hi => h ⟨i, hi⟩⟩

theorem not_matches_of_conflicts {p q : Pattern} (h : p.conflicts q = true) (w : Word) :
    ¬(p.Matches w = true ∧ q.Matches w = true) := by
  simp only [Pattern.conflicts, Pattern.Matches, bne_iff_ne, beq_iff_eq] at *
  rintro ⟨hp, hq⟩
  exact h (by rw [← hp, ← hq]; ac_rfl)

theorem field_eq_iff_bits (w : Word) (lo n v : Nat) :
    field w lo n = v ↔ ∀ j, (decide (j < n) && w.getLsbD (lo + j)) = v.testBit j := by
  simp only [field, Nat.eq_iff_testBit_eq, Nat.testBit_mod_two_pow, Nat.testBit_div_two_pow,
    BitVec.testBit_toNat, Nat.add_comm]

theorem fieldIs_matches {lo n v : Nat} (hn : lo + n ≤ 16) (hv : v < 2 ^ n) (w : Word) :
    (fieldIs lo n v).Matches w = true ↔ field w lo n = v := by
  simp only [matches_iff_bits, field_eq_iff_bits, fieldIs, BitVec.getLsbD_ofNat, Nat.testBit_shiftLeft,
    Nat.testBit_two_pow_sub_one]
  constructor
  · intro h j
    by_cases hj : j < n
    · simpa [hj, show lo + j < 16 by omega] using h ⟨lo + j, by omega⟩
    · simp [hj, Nat.testBit_lt_two_pow (hv.trans_le (Nat.pow_le_pow_right (by decide) (not_lt.mp hj)))]
  · intro h i
    by_cases hi : lo ≤ i.val
    · simp [← h, hi, Bool.and_comm]
    · simp [hi]

theorem both_matches {p q : Pattern} (hd : p.mask &&& q.mask = 0#16) (hp : p.pat &&& p.mask = p.pat)
    (hq : q.pat &&& q.mask = q.pat) (w : Word) :
    (p.both q).Matches w = true ↔ p.Matches w = true ∧ q.Matches w = true := by
  have bit : ∀ w m m' v v' : Bool, (m && m') = false → (v && m) = v → (v' && m') = v' →
      ((w && (m || m')) = (v || v') ↔ (w && m) = v ∧ (w && m') = v') := by decide
  simp only [matches_iff_bits, ← forall_and, Pattern.both, BitVec.getLsbD_or]
  refine forall_congr' fun i => bit _ _ _ _ _ ?_ ?_ ?_ <;> rw [← BitVec.getLsbD_and]
  · rw [hd, BitVec.getLsbD_zero]
  · rw [hp]
  · rw [hq]

theorem any_map_both {p : Pattern} {l : List Pattern} (hp : p.pat &&& p.mask = p.pat)
    (hl : ∀ q ∈ l, p.mask &&& q.mask = 0#16) (hpat : ∀ q ∈ l, q.pat &&& q.mask = q.pat) (w : Word) :
    (l.map p.both).any (·.Matches w) = true ↔ p.Matches w = true ∧ l.any (·.Matches w) = true := by
  have both_iff : ∀ q ∈ l, ((p.both q).Matches w = true ↔ p.Matches w = true ∧ q.Matches w = true) :=
    fun q hq => both_matches (hl q hq) hp (hpat q hq) w
  simp only [List.any_map, List.any_eq_true, Function.comp_apply]
  constructor
  · rintro ⟨q, hq, h⟩
    obtain ⟨hpw, hqw⟩ := (both_iff q hq).mp h
    exact ⟨hpw, q, hq, hqw⟩
  · rintro ⟨hpw, q, hq, hqw⟩
    exact ⟨q, hq, (both_iff q hq).mpr ⟨hpw, hqw⟩⟩

theorem fieldIs_whole_word (w : Word) (v : Nat) : (fieldIs 0 16 v).Matches w = (w == BitVec.ofNat 16 v) := by
  have all_ones : BitVec.ofNat 16 ((2 ^ 16 - 1) <<< 0) = BitVec.allOnes 16 := by decide
  rw [Pattern.Matches, fieldIs, all_ones, BitVec.and_allOnes, Nat.shiftLeft_zero]

/-- The highest set bit of a field is the base-2 logarithm of what stands from bit `hi - 1` down. -/
theorem any_someBitSet {lo hi : Nat} (hlo : lo ≤ hi) (hhi : hi ≤ 16) (w : Word) :
    (someBitSet lo hi).any (·.Matches w) = true ↔ field w lo (hi - lo) ≠ 0 := by
  have field_eq : ∀ k ≤ hi, field w k (hi - k) = w.toNat % 2 ^ hi / 2 ^ k := fun k hk => by
    rw [field, ← Nat.mod_mul_right_div_self, ← Nat.pow_add, Nat.add_sub_cancel' hk]
  have lt_hi : w.toNat % 2 ^ hi < 2 ^ hi := Nat.mod_lt _ (Nat.two_pow_pos hi)
  have matches_eq : ∀ k < hi,
      ((fieldIs k (hi - k) 1).Matches w = true ↔ w.toNat % 2 ^ hi / 2 ^ k = 1) := fun k hk => by
    rw [fieldIs_matches (by omega) (Nat.one_lt_two_pow (by omega)), field_eq k hk.le]
  rw [field_eq lo hlo]
  simp only [someBitSet, List.any_map, List.any_eq_true, List.mem_range'_1, Function.comp_apply]
  constructor
  · rintro ⟨k, ⟨hlk, hkh⟩, hk⟩
    rw [matches_eq k (by omega)] at hk
    have : w.toNat % 2 ^ hi / 2 ^ k ≤ w.toNat % 2 ^ hi / 2 ^ lo :=
      Nat.div_le_div_left (Nat.pow_le_pow_right two_pos hlk) (Nat.two_pow_pos lo)
    omega
  · intro hne
    have hle := (Nat.div_ne_zero_iff.mp hne).2
    have hx : w.toNat % 2 ^ hi ≠ 0 := (Nat.lt_of_lt_of_le (Nat.two_pow_pos lo) hle).ne'
    have hlog : (w.toNat % 2 ^ hi).log2 < hi := (Nat.log2_lt hx).mpr lt_hi
    refine ⟨_, ⟨(Nat.le_log2 hx).mpr hle, by omega⟩, (matches_eq _ hlog).mpr ?_⟩
    exact Nat.div_eq_of_lt_le (by simpa using Nat.log2_self_le hx)
      (by simpa [Nat.pow_succ'] using Nat.lt_log2_self (n := w.toNat % 2 ^ hi))

theorem field_low4_div_four (w : Word) : field w 0 4 / 4 = field w 2 2 := by
  simp only [field]
  omega

/-- Among the words `1001 010x xxxx 1001` the indirect jumps and calls are those whose bits 7:5 are 0. -/
theorem not_indirect_jump_iff (w : Word) :
    (field w 9 7 = 0x4A ∧ field w 0 4 = 9) ∧ (!([0x9409#16, 0x9419#16, 0x9509#16, 0x9519#16].contains w)) = true ↔
      (field w 9 7 = 0x4A ∧ field w 0 4 = 9) ∧ field w 5 3 ≠ 0 := by
  simp only [List.contains_cons, List.contains_nil, Bool.or_false, Bool.not_eq_true', Bool.or_eq_false_iff,
    beq_eq_false_iff_ne, ← BitVec.toNat_inj, ne_eq, field, BitVec.reduceToNat]
  omega

theorem reservedWord_eq_any (w : Word) : reservedWord w = reservedPatterns.any (·.Matches w) := by
  rw [Bool.eq_iff_iff]
  simp only [reservedWord, reservedPatterns, List.any_append, Bool.or_eq_true, Bool.and_eq_true, beq_iff_eq,
    bne_iff_ne, low4, not_indirect_jump_iff]
  simp (disch := decide) only [any_map_both, any_someBitSet]
  simp (disch := decide) only [List.any_map, List.any_cons, List.any_nil, Function.comp_apply, Bool.or_false,
    Bool.or_eq_true, beq_iff_eq, List.contains_cons, List.contains_nil, both_matches, fieldIs_whole_word,
    fieldIs_matches, field_low4_div_four, or_assoc]

/-! ## Each word is in one pattern -/

/-- No two patterns have a word in common. The table's parts are compared pair by pair. -/
theorem conflicts_patterns : patterns.Pairwise fun p q => p.conflicts q = true := by
  simp only [patterns, opTable, List.map_append, List.append_assoc, List.pairwise_append, List.forall_mem_append]
  decide

theorem pat_and_mask_patterns : ∀ p ∈ patterns, p.pat &&& p.mask = p.pat := by
  simp only [patterns, opTable, List.map_append, List.forall_mem_append]
  decide

theorem size_reservedPatterns : (reservedPatterns.map Pattern.size).sum = 1699 := by
  decide

theorem size_opTable : ((opTable.map rowPattern).map Pattern.size).sum = 63837 := by
  simp only [opTable, List.map_append, List.sum_append]
  decide

theorem size_patterns : (patterns.map Pattern.size).sum = 2 ^ 16 := by
  rw [patterns, List.map_append, List.sum_append, size_opTable, size_reservedPatterns]
  rfl

/-- A word as its bits. -/
def bitsEquiv : Word ≃ (Fin 16 → Bool) where
  toFun w i := w.getLsbD i
  invFun := BitVec.ofFnLE
  left_inv w := BitVec.eq_of_getLsbD_eq fun i hi => by rw [BitVec.getLsbD_ofFnLE, dif_pos hi]
  right_inv f := funext fun i => by simp only [BitVec.getLsbD_ofFnLE, i.isLt, dite_true]

/-- The values that the pattern leaves to bit `i`. -/
def Pattern.choices (p : Pattern) (i : Fin 16) : Finset Bool :=
  if p.mask.getLsbD i then {p.pat.getLsbD i} else Finset.univ

theorem card_choices (p : Pattern) (i : Fin 16) : (p.choices i).card = if p.mask.getLsbD i then 1 else 2 := by
  rw [Pattern.choices]
  split <;> rfl

theorem matches_iff_choices {p : Pattern} (hp : p.pat &&& p.mask = p.pat) (w : Word) :
    p.Matches w = true ↔ bitsEquiv w ∈ Fintype.piFinset p.choices := by
  have bit : ∀ w m v : Bool, (v && m) = v →
      ((w && m) = v ↔ w ∈ if m then ({v} : Finset Bool) else Finset.univ) := by decide
  rw [matches_iff_bits, Fintype.mem_piFinset]
  exact forall_congr' fun i => bit _ _ _ (by rw [← BitVec.getLsbD_and, hp])

theorem card_matches {p : Pattern} (hp : p.pat &&& p.mask = p.pat) :
    (Finset.univ.filter fun w => p.Matches w = true).card = p.size := by
  rw [Finset.card_equiv bitsEquiv (t := Fintype.piFinset p.choices) (by simp [matches_iff_choices hp]),
    Fintype.card_piFinset, Pattern.size, List.prod_ofFn]
  exact Finset.prod_congr rfl fun i _ => card_choices p i

theorem sum_countP_matches {l : List Pattern} (hl : ∀ p ∈ l, p.pat &&& p.mask = p.pat) :
    ∑ w : Word, l.countP (·.Matches w) = (l.map Pattern.size).sum := by
  induction l with
  | nil => simp
  | cons p l ih =>
    obtain ⟨hp, hl⟩ := List.forall_mem_cons.mp hl
    simp only [List.countP_cons, Finset.sum_add_distrib, ih hl, List.map_cons, List.sum_cons, ← card_matches hp,
      Finset.card_filter]
    exact Nat.add_comm _ _

theorem countP_matches_le_one {l : List Pattern} (hl : l.Pairwise fun p q => p.conflicts q = true) (w : Word) :
    l.countP (·.Matches w) ≤ 1 := by
  induction l with
  | nil => simp
  | cons p l ih =>
    obtain ⟨hp, hl⟩ := List.pairwise_cons.mp hl
    by_cases h : p.Matches w = true
    · have : l.countP (·.Matches w) = 0 :=
        List.countP_eq_zero.mpr fun q hq hqw => not_matches_of_conflicts (hp q hq) w ⟨h, hqw⟩
      simp [h, this]
    · simpa [h] using ih hl

theorem eq_one_of_sum_eq_card {α : Type} [Fintype α] {f : α → Nat} (hle : ∀ a, f a ≤ 1)
    (hsum : ∑ a, f a = Fintype.card α) (a : α) : f a = 1 := by
  have same_sum : ∑ a, f a = ∑ _a : α, 1 := by simpa using hsum
  exact (Finset.sum_eq_sum_iff_of_le fun a _ => hle a).mp same_sum a (Finset.mem_univ a)

/-- R85: at most one pattern matches a word, and as many words are matched as there are. -/
theorem countP_matches_patterns (w : Word) : patterns.countP (·.Matches w) = 1 := by
  refine eq_one_of_sum_eq_card (countP_matches_le_one conflicts_patterns) ?_ w
  rw [sum_countP_matches pat_and_mask_patterns, size_patterns, Fintype.card_congr BitVec.equivFin.toEquiv,
    Fintype.card_fin]

theorem pattern_unique {p q : Pattern} {w : Word} (hp : p ∈ patterns) (hq : q ∈ patterns)
    (hpw : p.Matches w = true) (hqw : q.Matches w = true) : p = q := by
  have one := countP_matches_patterns w
  rw [List.countP_eq_length_filter, List.length_eq_one_iff] at one
  obtain ⟨r, hr⟩ := one
  have eq_r : ∀ x ∈ patterns, x.Matches w = true → x = r := fun x hx hxw => by
    simpa [hr] using List.mem_filter (p := (·.Matches w)).mpr ⟨hx, hxw⟩
  exact (eq_r p hp hpw).trans (eq_r q hq hqw).symm

/-! ## The reserved words (R85) -/

theorem matching_rows_length (w : Word) :
    (opTable.filter fun row => w &&& row.mask == row.pat).length =
      (opTable.map rowPattern).countP (·.Matches w) := by
  rw [List.countP_map, List.countP_eq_length_filter]
  rfl

theorem countP_matches_reservedPatterns (w : Word) :
    reservedPatterns.countP (·.Matches w) = if reservedWord w then 1 else 0 := by
  have le_one : reservedPatterns.countP (·.Matches w) ≤ 1 :=
    countP_matches_le_one (conflicts_patterns.sublist (List.sublist_append_right _ _)) w
  have pos_iff : 0 < reservedPatterns.countP (·.Matches w) ↔ reservedWord w = true := by
    rw [List.countP_pos_iff, reservedWord_eq_any, List.any_eq_true]
  split
  next h => exact le_antisymm le_one (pos_iff.mpr h)
  next h => exact Nat.eq_zero_of_not_pos (mt pos_iff.mp h)

theorem length_filter_range {n : Nat} (f : BitVec n → Bool) :
    ((List.range (2 ^ n)).filter fun k => f (BitVec.ofNat n k)).length = ∑ w : BitVec n, if f w then 1 else 0 := by
  calc _ = Nat.count (fun k => f (BitVec.ofNat n k) = true) (2 ^ n) := by
        simp [Nat.count, List.countP_eq_length_filter]
    _ = ∑ k ∈ Finset.range (2 ^ n), if f (BitVec.ofNat n k) then 1 else 0 := by
        rw [Nat.count_eq_card_filter_range, Finset.card_filter]
    _ = ∑ k : Fin (2 ^ n), if f (BitVec.ofNat n k) then 1 else 0 := Finset.sum_range _
    _ = ∑ w : BitVec n, if f w then 1 else 0 :=
        (Fintype.sum_equiv BitVec.equivFin.toEquiv _ _ fun w => by simp [BitVec.equivFin]).symm

/-- Settles O57: the rows' patterns and the reserved ones cut the first words into disjoint sets, so a word that is
in no reserved pattern is in one row's, and the reserved words are as many as the reserved patterns have. -/
theorem reservedWords : Obligations.ReservedWords := by
  refine ⟨fun w => ?_, ?_⟩
  · have one : (opTable.map rowPattern).countP (·.Matches w) + reservedPatterns.countP (·.Matches w) = 1 := by
      rw [← List.countP_append]
      exact countP_matches_patterns w
    rw [countP_matches_reservedPatterns] at one
    rw [matching_rows_length]
    split <;> simp_all
  · calc _ = ∑ w : Word, if reservedWord w then 1 else 0 := length_filter_range reservedWord
      _ = ∑ w : Word, reservedPatterns.countP (·.Matches w) := by simp only [countP_matches_reservedPatterns]
      _ = 1699 := by
        rw [sum_countP_matches fun p hp => pat_and_mask_patterns p (List.mem_append_right _ hp),
          size_reservedPatterns]

/-! ## The two-word instructions (R75, R76) -/

/-- The pattern of the row of an instruction of two words. -/
def twoWordPattern : Instr → Option Pattern
  | .lds _ _ => some ⟨0xFE0F#16, 0x9000#16⟩
  | .sts _ _ => some ⟨0xFE0F#16, 0x9200#16⟩
  | .jmp _ => some ⟨0xFE0E#16, 0x940C#16⟩
  | .call _ => some ⟨0xFE0E#16, 0x940E#16⟩
  | _ => none

theorem twoWordPattern_eq_lds (i : Instr) :
    twoWordPattern i = some ⟨0xFE0F#16, 0x9000#16⟩ ↔ ∃ d k, i = .lds d k := by
  unfold twoWordPattern
  split <;> simp_all

theorem twoWordPattern_eq_sts (i : Instr) :
    twoWordPattern i = some ⟨0xFE0F#16, 0x9200#16⟩ ↔ ∃ k r, i = .sts k r := by
  unfold twoWordPattern
  split <;> simp_all

theorem twoWordPattern_eq_jmp (i : Instr) :
    twoWordPattern i = some ⟨0xFE0E#16, 0x940C#16⟩ ↔ ∃ k, i = .jmp k := by
  unfold twoWordPattern
  split <;> simp_all

theorem twoWordPattern_eq_call (i : Instr) :
    twoWordPattern i = some ⟨0xFE0E#16, 0x940E#16⟩ ↔ ∃ k, i = .call k := by
  unfold twoWordPattern
  split <;> simp_all

theorem words_eq_two_iff (i : Instr) :
    i.words = 2 ↔
      (∃ d k, i = .lds d k) ∨ (∃ k r, i = .sts k r) ∨ (∃ k, i = .jmp k) ∨ ∃ k, i = .call k := by
  cases i <;> simp [Instr.words]

/-- The rows that build an instruction of two words are those whose pattern passes the length test. -/
theorem twoWordPattern_build {row : OpRow} (h : row ∈ opTable) (w0 w1 : Word) :
    twoWordPattern (row.build w0 w1) = if isTwoWord (rowPattern row).pat then some (rowPattern row) else none := by
  have rows : opTable.map (fun row => twoWordPattern (row.build w0 w1)) =
      opTable.map fun row => if isTwoWord (rowPattern row).pat then some (rowPattern row) else none := rfl
  exact List.map_inj_left.mp rows row h

theorem decodeOp_ok {w0 w1 : Word} {i : Instr} (h : decodeOp w0 w1 = .ok i) :
    ∃ row ∈ opTable, (rowPattern row).Matches w0 = true ∧ row.build w0 w1 = i := by
  unfold decodeOp at h
  split at h
  next row hrow =>
    cases h
    have hmatch := List.find?_some hrow
    exact ⟨row, List.mem_of_find?_eq_some hrow, hmatch, rfl⟩
  next => cases h

theorem and_mask_eq_iff_twoWordPattern {w0 w1 : Word} {i : Instr} (h : decodeOp w0 w1 = .ok i) {m p : Word}
    (hrow : ⟨m, p⟩ ∈ opTable.map rowPattern) (htwo : isTwoWord p = true) :
    w0 &&& m = p ↔ twoWordPattern i = some ⟨m, p⟩ := by
  obtain ⟨row, hmem, hmatch, rfl⟩ := decodeOp_ok h
  rw [twoWordPattern_build hmem]
  constructor
  · intro hmp
    have same : rowPattern row = ⟨m, p⟩ := pattern_unique (List.mem_append_left _ (List.mem_map_of_mem hmem))
      (List.mem_append_left _ hrow) hmatch (beq_iff_eq.mpr hmp)
    rw [same, if_pos htwo]
  · intro hsome
    split at hsome <;> cases hsome
    exact beq_iff_eq.mp hmatch

/-- `JMP` and `CALL` differ in bit 1 alone. -/
theorem jmp_or_call_iff (w : Word) :
    (w &&& 0xFE0E#16 = 0x940C#16 ∨ w &&& 0xFE0E#16 = 0x940E#16) ↔ w &&& 0xFE0C#16 = 0x940C#16 := by
  have with_bit_one (v : Nat) (hv : v < 2) := (both_matches (p := ⟨0xFE0C#16, 0x940C#16⟩) (q := fieldIs 1 1 v)
    (by decide +revert) rfl (by decide +revert) w).trans
    (and_congr beq_iff_eq (fieldIs_matches (by decide) hv w))
  have jmp_iff : w &&& 0xFE0E#16 = 0x940C#16 ↔ w &&& 0xFE0C#16 = 0x940C#16 ∧ field w 1 1 = 0 :=
    beq_iff_eq.symm.trans (with_bit_one 0 (by decide))
  have call_iff : w &&& 0xFE0E#16 = 0x940E#16 ↔ w &&& 0xFE0C#16 = 0x940C#16 ∧ field w 1 1 = 1 :=
    beq_iff_eq.symm.trans (with_bit_one 1 (by decide))
  have bit_one : field w 1 1 = 0 ∨ field w 1 1 = 1 := by
    simp only [field]
    omega
  rw [jmp_iff, call_iff, ← and_or_left, and_iff_left bit_one]

theorem isTwoWord_iff (w0 : Word) :
    isTwoWord w0 = true ↔ w0 &&& 0xFE0F#16 = 0x9000#16 ∨ w0 &&& 0xFE0F#16 = 0x9200#16 ∨
      w0 &&& 0xFE0E#16 = 0x940C#16 ∨ w0 &&& 0xFE0E#16 = 0x940E#16 := by
  simp only [isTwoWord, Bool.or_eq_true, beq_iff_eq, or_assoc]

/-- Settles O58: the row that decodes a first word is the only one that matches it, and its mask and pattern
are one of the four exactly where it builds an instruction of two words. -/
theorem lengthTest : Obligations.LengthTest := by
  refine ⟨isTwoWord_iff, fun w0 w1 i h => ?_, jmp_or_call_iff⟩
  have lds_iff : w0 &&& 0xFE0F#16 = 0x9000#16 ↔ ∃ d k, i = .lds d k :=
    (and_mask_eq_iff_twoWordPattern h (by simp [opTable, opTransfer, rowPattern]) rfl).trans (twoWordPattern_eq_lds i)
  have sts_iff : w0 &&& 0xFE0F#16 = 0x9200#16 ↔ ∃ k r, i = .sts k r :=
    (and_mask_eq_iff_twoWordPattern h (by simp [opTable, opTransfer, rowPattern]) rfl).trans (twoWordPattern_eq_sts i)
  have jmp_iff : w0 &&& 0xFE0E#16 = 0x940C#16 ↔ ∃ k, i = .jmp k :=
    (and_mask_eq_iff_twoWordPattern h (by simp [opTable, opBranch, rowPattern]) rfl).trans (twoWordPattern_eq_jmp i)
  have call_iff : w0 &&& 0xFE0E#16 = 0x940E#16 ↔ ∃ k, i = .call k :=
    (and_mask_eq_iff_twoWordPattern h (by simp [opTable, opBranch, rowPattern]) rfl).trans (twoWordPattern_eq_call i)
  refine ⟨?_, lds_iff, sts_iff, jmp_iff, call_iff⟩
  rw [words_eq_two_iff, lds_iff, sts_iff, jmp_iff, call_iff]

end Sys2Proof.Encoding
end

section
/-! PROOFS. The flags of `AddFlags` and `SubFlags` as carries, borrows and overflows (R101, R102), and the logic
instructions bit by bit (R105). C and H are one fact at two widths: the equations of R101 and R102 read the top bits of
two numbers and of their sum or difference, and whether that wrapped follows from these three bits alone. -/

namespace Sys2Proof.Arithmetic

open Sys2Proof.Machine

/-! ## Carry and borrow from the top bits -/

theorem bitNat_le_one (c : Bool) : bitNat c ≤ 1 := by cases c <;> decide

/-- The carry out of numbers below `2 * m`, whose top bits are `m ≤ x` and `m ≤ y`: at least two of the top bits of `x`,
of `y` and of the negated sum `r` are set. -/
theorem carry_eq_of_top_bits {m x y c r : Nat} (hx : x < 2 * m) (hy : y < 2 * m) (hc : c ≤ 1) (hr : r < 2 * m)
    (sum : x + y + c = r ∨ x + y + c = r + 2 * m) :
    ((decide (m ≤ x) && decide (m ≤ y)) || (decide (m ≤ y) && !decide (m ≤ r)) ||
      (!decide (m ≤ r) && decide (m ≤ x))) = decide (2 * m ≤ x + y + c) := by
  rw [Bool.eq_iff_iff]
  simp only [Bool.or_eq_true, Bool.and_eq_true, Bool.not_eq_true', decide_eq_true_eq, decide_eq_false_iff_not]
  omega

/-- The borrow into numbers below `2 * m`: at least two of the top bits of the negated `x`, of `y` and of the difference
`r` are set. -/
theorem borrow_eq_of_top_bits {m x y c r : Nat} (hx : x < 2 * m) (hy : y < 2 * m) (hc : c ≤ 1) (hr : r < 2 * m)
    (diff : x = r + y + c ∨ x + 2 * m = r + y + c) :
    ((!decide (m ≤ x) && decide (m ≤ y)) || (decide (m ≤ y) && decide (m ≤ r)) ||
      (decide (m ≤ r) && !decide (m ≤ x))) = decide (x < y + c) := by
  rw [Bool.eq_iff_iff]
  simp only [Bool.or_eq_true, Bool.and_eq_true, Bool.not_eq_true', decide_eq_true_eq, decide_eq_false_iff_not]
  omega

/-! ## The flags of a sum (R101) -/

theorem toNat_add_bitNat (a b : Byte) (cin : Bool) :
    (a + b + BitVec.ofNat 8 (bitNat cin)).toNat = (a.toNat + b.toNat + bitNat cin) % 256 := by
  simp only [BitVec.toNat_add, BitVec.toNat_ofNat]
  omega

section
variable {a b r : Byte} {cin : Bool} (hr : r.toNat = (a.toNat + b.toNat + bitNat cin) % 256)
include hr

theorem carry_from_bit_three :
    ((bitAt a 3 && bitAt b 3) || (bitAt b 3 && !bitAt r 3) || (!bitAt r 3 && bitAt a 3)) =
      decide (16 ≤ a.toNat % 16 + b.toNat % 16 + bitNat cin) := by
  have hc := bitNat_le_one cin
  simp only [bitAt_three]
  exact carry_eq_of_top_bits (by omega) (by omega) hc (by omega) (by omega)

theorem carry_from_bit_seven :
    ((bitAt a 7 && bitAt b 7) || (bitAt b 7 && !bitAt r 7) || (!bitAt r 7 && bitAt a 7)) =
      decide (256 ≤ a.toNat + b.toNat + bitNat cin) := by
  have hc := bitNat_le_one cin
  simp only [bitAt_seven]
  exact carry_eq_of_top_bits a.isLt b.isLt hc r.isLt (by omega)

/-- Operands of one sign and a result of the other: the signed sum does not fit. -/
theorem overflow_of_sum :
    ((bitAt a 7 && bitAt b 7 && !bitAt r 7) || (!bitAt a 7 && !bitAt b 7 && bitAt r 7)) =
      decide (a.toInt + b.toInt + bitNat cin < -128 ∨ 127 < a.toInt + b.toInt + bitNat cin) := by
  have hc := bitNat_le_one cin
  rw [Bool.eq_iff_iff]
  simp only [bitAt_seven, toInt_byte, Bool.or_eq_true, Bool.and_eq_true, Bool.not_eq_true', decide_eq_true_eq,
    decide_eq_false_iff_not]
  omega

end

/-- Settles O1: of each flag the equation is what `addFlags` leaves there; C and H are the carry out of the top bit of
the byte and of its low nibble. -/
theorem addFlagsMeanCarryAndOverflow : Obligations.AddFlagsMeanCarryAndOverflow := by
  intro a b sr cin
  have hr := toNat_add_bitNat a b cin
  refine ⟨?h, ?h_carry, ?v, ?v_overflow, ?n, ?z, ?c, ?c_carry, ?s, ?t, ?i⟩ <;> rw [flagOf_addFlags]
  case h_carry => exact carry_from_bit_three hr
  case c_carry => exact carry_from_bit_seven hr
  case v_overflow => exact overflow_of_sum hr
  case s => simp only [flagOf_addFlags]
  case z => rfl

/-! ## The flags of a difference (R102) -/

theorem toNat_sub_bitNat (a b : Byte) (cin : Bool) :
    (a - b - BitVec.ofNat 8 (bitNat cin)).toNat = difference a b cin := by
  have hc := bitNat_le_one cin
  simp only [difference, BitVec.toNat_sub, BitVec.toNat_ofNat]
  omega

theorem eq_or_borrow_of_difference (a b : Byte) (cin : Bool) :
    a.toNat = difference a b cin + b.toNat + bitNat cin ∨
      a.toNat + 256 = difference a b cin + b.toNat + bitNat cin := by
  have hc := bitNat_le_one cin
  unfold difference
  omega

section
variable {a b r : Byte} {cin : Bool} (hr : r.toNat = difference a b cin)
include hr

theorem borrow_into_bit_three :
    ((!bitAt a 3 && bitAt b 3) || (bitAt b 3 && bitAt r 3) || (bitAt r 3 && !bitAt a 3)) =
      decide (a.toNat % 16 < b.toNat % 16 + bitNat cin) := by
  have hc := bitNat_le_one cin
  have diff := hr ▸ eq_or_borrow_of_difference a b cin
  simp only [bitAt_three]
  exact borrow_eq_of_top_bits (by omega) (by omega) hc (by omega) (by omega)

theorem borrow_into_bit_seven :
    ((!bitAt a 7 && bitAt b 7) || (bitAt b 7 && bitAt r 7) || (bitAt r 7 && !bitAt a 7)) =
      decide (a.toNat < b.toNat + bitNat cin) := by
  have hc := bitNat_le_one cin
  have diff := hr ▸ eq_or_borrow_of_difference a b cin
  simp only [bitAt_seven]
  exact borrow_eq_of_top_bits a.isLt b.isLt hc r.isLt (by omega)

/-- Operands of different signs and a result of the subtrahend's: the signed difference does not fit. -/
theorem overflow_of_difference :
    ((bitAt a 7 && !bitAt b 7 && !bitAt r 7) || (!bitAt a 7 && bitAt b 7 && bitAt r 7)) =
      decide (a.toInt - b.toInt - bitNat cin < -128 ∨ 127 < a.toInt - b.toInt - bitNat cin) := by
  have hc := bitNat_le_one cin
  have diff := hr ▸ eq_or_borrow_of_difference a b cin
  rw [Bool.eq_iff_iff]
  simp only [bitAt_seven, toInt_byte, Bool.or_eq_true, Bool.and_eq_true, Bool.not_eq_true', decide_eq_true_eq,
    decide_eq_false_iff_not]
  omega

end

/-- Settles O2: as for the sum; C and H are the borrows of the byte and of its low nibble. -/
theorem subFlagsMeanBorrowAndOverflow : Obligations.SubFlagsMeanBorrowAndOverflow := by
  intro a b sr cin
  have hr := toNat_sub_bitNat a b cin
  refine ⟨?h, ?h_borrow, ?v, ?v_overflow, ?n, ?c, ?c_borrow, ?s, ?z, ?t, ?i⟩ <;> rw [flagOf_subFlags]
  case h_borrow => exact borrow_into_bit_three hr
  case c_borrow => exact borrow_into_bit_seven hr
  case v_overflow => exact overflow_of_difference hr
  case s => simp only [flagOf_subFlags]

/-! ## Instructions that write one register and the flags (R100) -/

/-- An instruction that ends in one register write and one write of `SREG` changes only that register and the flags it
writes. -/
theorem completes_of_writeReg_mapSreg {i : Instr} {s : State} {d : Reg} {v : Byte} {update : Byte → Byte}
    {fs : List Flag} {P : State → Prop}
    (ends : exec i s = nextAfter 1 (mapSreg update (writeReg d v s)))
    (keeps : ∀ g, g ∉ fs → flagOf (update s.sreg) g = flagOf s.sreg g)
    (holds : P (advance 1 (mapSreg update (writeReg d v s)))) : Completes i s 1 [d] fs P := by
  refine ⟨_, ends, rfl, ⟨fun e he => ?_, keeps, fun _ => rfl, rfl⟩, holds⟩
  have hne : e ≠ d := by simpa using he
  simp [hne]

/-! ## Logic (R105) -/

@[simp] theorem bitAt_and (x y : Byte) (j : Nat) : bitAt (x &&& y) j = (bitAt x j && bitAt y j) :=
  BitVec.getLsbD_and

@[simp] theorem bitAt_or (x y : Byte) (j : Nat) : bitAt (x ||| y) j = (bitAt x j || bitAt y j) :=
  BitVec.getLsbD_or

@[simp] theorem bitAt_xor (x y : Byte) (j : Nat) : bitAt (x ^^^ y) j = (bitAt x j ^^ bitAt y j) :=
  BitVec.getLsbD_xor

/-- `0xFF - K` has the bits of `K` negated (R126). -/
theorem bitAt_ff_sub (x : Byte) {j : Nat} (hj : j < 8) : bitAt (0xFF#8 - x) j = !bitAt x j := by
  have complement : 0xFF#8 - x = ~~~x := BitVec.allOnes_sub_eq_not x
  simp [complement, bitAt, hj]

theorem eq_zero_iff_bitAt (x : Byte) : x = 0#8 ↔ ∀ j, j < 8 → bitAt x j = false := by
  simp [BitVec.eq_of_getLsbD_eq_iff, bitAt]

/-- An instruction that writes `v` and the flags of `LogicFlags(v)`, for the bits `f` of `v`. -/
theorem completes_logic {i : Instr} {s : State} {d : Reg} {v : Byte} {f : Nat → Bool}
    (ends : exec i s = nextAfter 1 (mapSreg (logicFlags v) (writeReg d v s)))
    (bits : ∀ j, j < 8 → bitAt v j = f j) :
    Completes i s 1 [d] [.z, .n, .v, .s] (fun t =>
      (∀ j, j < 8 → bitAt (readReg t d) j = f j) ∧
      readFlag t .v = false ∧ readFlag t .n = f 7 ∧ readFlag t .s = f 7 ∧
      (readFlag t .z = true ↔ ∀ j, j < 8 → f j = false)) := by
  have sign : bitAt v 7 = f 7 := bits 7 (by decide)
  have zero : v = 0#8 ↔ ∀ j, j < 8 → f j = false :=
    (eq_zero_iff_bitAt v).trans (forall₂_congr fun j hj => by rw [bits j hj])
  refine completes_of_writeReg_mapSreg ends (fun g hg => ?_) ?_
  · cases g <;> simp at hg ⊢
  · simpa [sign, zero] using bits

/-- Settles O7: each of the nine writes one value and its `LogicFlags`, so only the value's bits are left to say. -/
theorem logicResults : Obligations.LogicResults := by
  intro s d r k
  refine ⟨completes_logic rfl ?and, completes_logic rfl ?andi, completes_logic rfl ?or, completes_logic rfl ?ori,
    completes_logic rfl ?eor, completes_logic rfl ?sbr, completes_logic rfl ?cbr, completes_logic rfl ?tst,
    completes_logic rfl ?clr⟩ <;> intro j hj
  case and => exact bitAt_and _ _ j
  case andi => exact bitAt_and _ _ j
  case or => exact bitAt_or _ _ j
  case ori => exact bitAt_or _ _ j
  case eor => exact bitAt_xor _ _ j
  case sbr => exact bitAt_or _ _ j
  case cbr => rw [bitAt_and, bitAt_ff_sub _ hj]
  case tst => rw [bitAt_and, Bool.and_self]
  case clr => rw [bitAt_xor, Bool.xor_self]

end Sys2Proof.Arithmetic
end

section
/-! PROOFS. Conditional branches (R144). Every branch is `branchIf` on one stored flag, so what a branch does is
said once, of `branchIf`; what is left for an instruction is which flag it tests, and for which value. -/

namespace Sys2Proof.ControlFlow

open Sys2Proof.Machine

/-! ## Targets relative to `PC` (R140) -/

/-- A target is at offset `k` if it agrees with `PC + k + 1` modulo 2^`PC_BITS`, reduced already or not. -/
theorem atOffset_setPc {s : State} (wf : s.cfg.wf) {target : Nat} {k : Int}
    (congruent : (target : Int) ≡ s.pc.toNat + k + 1 [ZMOD (2 ^ s.cfg.pcBits : Nat)]) :
    AtOffset s (setPc target s) k := by
  unfold AtOffset
  rw [setPc_pc, toNat_pc wf, Int.natCast_mod]
  exact congruent

theorem relTarget_modEq (s : State) (k : Int) :
    (relTarget s k : Int) ≡ s.pc.toNat + k + 1 [ZMOD (2 ^ s.cfg.pcBits : Nat)] := by
  have nonneg : 0 ≤ ((s.pc.toNat : Int) + k + 1) % ((2 ^ s.cfg.pcBits : Nat) : Int) :=
    Int.emod_nonneg _ (by positivity)
  unfold relTarget
  rw [Int.toNat_of_nonneg nonneg]
  exact Int.mod_modEq _ _

/-! ## Branches (R144) -/

/-- An instruction that is `branchIf` on `taken` moves `PC` alone: to `PC + k + 1` where `taken`, else to `PC + 1`,
which is the target of the offset 0. -/
theorem branches_of_branchIf {i : Instr} {s : State} {taken : Bool} {k : BitVec 7} (wf : s.cfg.wf)
    (branch : exec i s = branchIf taken k s) : Branches i s taken k := by
  refine ⟨_, branch, rfl, atOffset_setPc wf ?_⟩
  cases taken with
  | true => exact relTarget_modEq s k.toInt
  | false => simp

/-- The bit of `SREG` that `BRBS` and `BRBC` test by a flag's number is that flag (R30). -/
theorem bitAt_sreg_ofNat_bit (s : State) (f : Flag) :
    bitAt s.sreg (BitVec.ofNat 3 f.bit).toNat = readFlag s f := by
  rw [BitVec.toNat_ofNat, Nat.mod_eq_of_lt f.bit_lt, readFlag, flagOf]

theorem exec_brbs_bit (s : State) (f : Flag) (k : BitVec 7) :
    exec (.brbs (BitVec.ofNat 3 f.bit) k) s = branchIf (readFlag s f) k s :=
  congrArg (branchIf · k s) (bitAt_sreg_ofNat_bit s f)

theorem exec_brbc_bit (s : State) (f : Flag) (k : BitVec 7) :
    exec (.brbc (BitVec.ofNat 3 f.bit) k) s = branchIf (!readFlag s f) k s :=
  congrArg (fun flag => branchIf (!flag) k s) (bitAt_sreg_ofNat_bit s f)

/-- Each of rows 49 to 66 is the branch on the flag and the value its row names (R170 to R187). -/
theorem exec_namedBranches (s : State) (k : BitVec 7) :
    ∀ x ∈ namedBranches k, exec x.1 s = branchIf (readFlag s x.2.1 == x.2.2) k s := by
  simp only [namedBranches, List.forall_mem_cons, List.not_mem_nil, false_imp_iff, implies_true, and_true,
    beq_true, beq_false]
  and_intros <;> rfl

/-- Settles O21: each of the twenty is `branchIf` on the flag and the value that its row names. -/
theorem branchResults : Obligations.BranchResults := by
  intro s k wf
  refine ⟨fun f => ⟨?brbs, ?brbc⟩, fun x hx => ?named⟩
  case brbs => exact branches_of_branchIf wf (exec_brbs_bit s f k)
  case brbc => exact branches_of_branchIf wf (exec_brbc_bit s f k)
  case named => exact branches_of_branchIf wf (exec_namedBranches s k x hx)

end Sys2Proof.ControlFlow
end

section
/-! PROOFS. Data transfer: the undefined operand combinations (R209). Every load and store that updates its pointer, and
`LPM` and `ELPM` by `Z+`, is one access behind two guards, its group's and R209's; which access does not matter where the
second guard refuses it. -/

namespace Sys2Proof.DataTransfer

open Sys2Proof.Machine

/-! ## The two guards (R88, R209) -/

theorem ifHas_of_has {g : Group} {s : State} (has : s.cfg.has g = true) (i : Instr) (run : State → Result) :
    ifHas g i run s = run s :=
  if_pos has

theorem ifDefined_of_holds {p : Pointer} {d : Reg} (holds : p.holds d = true) (i : Instr) (run : State → Result)
    (s : State) : ifDefined p d i run s = .fault (.undefinedOperands (firstWord i) s.pc) :=
  if_pos holds

/-- An instruction behind both guards, of a group that the device has, faults where R209 leaves its operands undefined. -/
theorem undefinedOperands_of_guards {g : Group} {p : Pointer} {d : Reg} {i : Instr} {run : State → Result} {s : State}
    (guards : exec i s = ifHas g i (ifDefined p d i run) s) (has : s.cfg.has g = true) (holds : p.holds d = true) :
    exec i s = .fault (.undefinedOperands (firstWord i) s.pc) := by
  rw [guards, ifHas_of_has has, ifDefined_of_holds holds]

/-! ## The forms that update their pointer (R201) -/

theorem exec_ldInc (p : Pointer) (d : Reg) (s : State) : exec (ldInc p d) s =
    ifHas .ldStVariants (ldInc p d) (ifDefined p d (ldInc p d) fun s => finish 1 (loadPostInc p d s)) s := by
  cases p <;> rfl

theorem exec_ldDec (p : Pointer) (d : Reg) (s : State) : exec (ldDec p d) s =
    ifHas .ldStVariants (ldDec p d) (ifDefined p d (ldDec p d) fun s => finish 1 (loadPreDec p d s)) s := by
  cases p <;> rfl

theorem exec_stInc (p : Pointer) (r : Reg) (s : State) : exec (stInc p r) s =
    ifHas .ldStVariants (stInc p r) (ifDefined p r (stInc p r) fun s => finish 1 (storePostInc p r s)) s := by
  cases p <;> rfl

theorem exec_stDec (p : Pointer) (r : Reg) (s : State) : exec (stDec p r) s =
    ifHas .ldStVariants (stDec p r) (ifDefined p r (stDec p r) fun s => finish 1 (storePreDec p r s)) s := by
  cases p <;> rfl

theorem exec_lpmZInc (d : Reg) (s : State) : exec (.lpmZInc d) s =
    ifHas .lpmVariants (.lpmZInc d) (ifDefined .z d (.lpmZInc d) fun s => finish 1 (loadProgramInc d s)) s :=
  rfl

theorem exec_elpmZInc (d : Reg) (s : State) : exec (.elpmZInc d) s =
    ifHas .elpm (.elpmZInc d) (ifDefined .z d (.elpmZInc d) fun s => finish 1 (loadExtendedInc d s)) s :=
  rfl

/-! ## Undefined operands (R209) -/

theorem holds_z_iff (d : Reg) : Pointer.z.holds d = true ↔ d = 30 ∨ d = 31 := by
  simp only [Pointer.holds, Pointer.low, Bool.or_eq_true, beq_iff_eq, Fin.reduceAdd]

/-- Settles O32: each form stands behind R209's guard, which refuses it here; the words are decoded one by one. -/
theorem undefinedOperandsFault : Obligations.UndefinedOperandsFault := by
  refine ⟨fun s p d holds has => ?pointer_forms, fun s d hd => ?program_memory, ?words⟩
  case pointer_forms =>
    simp only [List.forall_mem_cons, List.not_mem_nil, false_imp_iff, implies_true, and_true]
    exact ⟨undefinedOperands_of_guards (exec_ldInc p d s) has holds,
      undefinedOperands_of_guards (exec_ldDec p d s) has holds,
      undefinedOperands_of_guards (exec_stInc p d s) has holds,
      undefinedOperands_of_guards (exec_stDec p d s) has holds⟩
  case program_memory =>
    have holds := (holds_z_iff d).mpr hd
    exact ⟨fun has => undefinedOperands_of_guards (exec_lpmZInc d s) has holds,
      fun has => undefinedOperands_of_guards (exec_elpmZInc d s) has holds⟩
  case words =>
    simp only [List.forall_mem_cons, List.not_mem_nil, false_imp_iff, implies_true, and_true]
    and_intros <;> rfl

end Sys2Proof.DataTransfer
end

section
/-! PROOFS. What an instruction that completes can have changed, said once over all 136 rows (R14): it computed on
registers and flags, or made one of the accesses of Machine/Ops.lean, and then set `PC`. The invariant (10_state.md) and
the frames of the mode, `irq_inhibit`, program memory, SRAM and I follow from these few cases. -/

namespace Sys2Proof.Effects

open Sys2Proof.Machine

/-! ## The effects -/

/-- What an instruction can have done to the state before `PC` is set: to a state of which nothing but the parts named
here is new. -/
inductive Effect (i : Instr) (s : State) : State → Prop where
  /-- Registers, flags and the exchange with the devices; I only by `CLI` and `BCLR 7`, and no flag by a transfer. -/
  | computes (regs : Vector Byte 32) (sreg : Byte) (trace : List IoEvent) (inputs : List Byte)
      (interrupts : flagOf sreg .i = flagOf s.sreg .i ∨ i = .cli ∨ i = .bclr 7#3)
      (transfer : isTransfer i = true → sreg = s.sreg) :
      Effect i s { s with regs := regs, sreg := sreg, ioTrace := trace, ioInputs := inputs }
  /-- `SEI` and its word. -/
  | enables (sets : i = .sei ∨ i = .bset 7#3) : Effect i s (enableInterrupts s)
  /-- One data-space write, after a device read perhaps and before a pointer update. -/
  | stores (regs : Vector Byte 32) (trace : List IoEvent) (inputs : List Byte) {a : Word} {v : Byte} {u : State}
      (address : storeAddress i s = some a)
      (write : memWrite a v { s with ioTrace := trace, ioInputs := inputs } = .ok u) :
      Effect i s { u with regs := regs }
  /-- `PUSH`. -/
  | pushes {v : Byte} {u : State} (address : storeAddress i s = some (readSp s)) (pushed : push v s = .ok u) :
      Effect i s u
  /-- `POP`. -/
  | pops (regs : Vector Byte 32) {v : Byte} {u : State} (popped : pop s = .ok (v, u)) :
      Effect i s { u with regs := regs }
  /-- The calls. -/
  | calls {n : Nat} {u : State} (call : isCall i = true) (pushed : pushPc n s = .ok u) : Effect i s u
  /-- `RET`. -/
  | returns {n : Nat} {u : State} (popped : popPc s = .ok (n, u)) : Effect i s u
  /-- `RETI`. -/
  | leaves {n : Nat} {u : State} (reti : i = .reti) (popped : popPc s = .ok (n, u)) :
      Effect i s { mapSreg (fun sr => putFlag sr .i true) u with irqInhibit := true }
  /-- `BREAK` with `BREAK_MODE` = stop. -/
  | stops (brk : i = .brk) (mode : s.cfg.breakMode = .stop) : Effect i s { s with mode := .stopped }
  /-- `SLEEP` with `SLEEP_MODEL` = sleep. -/
  | sleeps (sleep : i = .sleep) (mode : s.cfg.sleepModel = .sleep) : Effect i s { s with mode := .sleeping }
  /-- `ELPM Rd, Z+`. -/
  | incrementsRampz (regs : Vector Byte 32) (v : Byte) (group : s.cfg.has .elpm = true) :
      Effect i s { writeRampz v s with regs := regs }
  /-- `SPM` with `SPM_MODEL` = device. -/
  | reprograms (trace : List IoEvent) (edits : List (Nat × Byte)) (spm : i = .spm)
      (mode : s.cfg.spmModel = .device) :
      Effect i s { s with ioTrace := trace, flash := applyEdits s.cfg edits s.flash }

/-- An effect, and then `PC`. -/
def Answers (i : Instr) (s t : State) : Prop := ∃ n u, Effect i s u ∧ t = setPc n u

section
variable {i : Instr} {s t : State}

/-! ## The ways an instruction ends -/

/-- What the instructions that only compute have in common. -/
structure Computed (i : Instr) (s u : State) : Prop where
  frame : u = { s with regs := u.regs, sreg := u.sreg, ioTrace := u.ioTrace, ioInputs := u.ioInputs }
  interrupts : flagOf u.sreg .i = flagOf s.sreg .i ∨ i = .cli ∨ i = .bclr 7#3
  transfer : isTransfer i = true → u.sreg = s.sreg

theorem Computed.effect {u : State} (h : Computed i s u) : Effect i s u := by
  rw [h.frame]
  exact .computes _ _ _ _ h.interrupts h.transfer

theorem answers_nextAfter {n : Nat} {u : State} (h : nextAfter n u = .next t) (effect : Effect i s u) :
    Answers i s t :=
  ⟨_, u, effect, nextAfter_next h⟩

theorem answers_finish {n : Nat} {r : Except Fault State} (h : finish n r = .next t)
    (effect : ∀ u, r = .ok u → Effect i s u) : Answers i s t := by
  obtain ⟨u, hu, rfl⟩ := finish_next h
  exact ⟨_, u, effect u hu, rfl⟩

theorem answers_setPc {n : Nat} {u : State} (h : (.next (setPc n u) : Result) = .next t) (effect : Effect i s u) :
    Answers i s t :=
  ⟨n, u, effect, by simpa [eq_comm] using h⟩

/-- Nothing but registers and the exchange with the devices. -/
theorem effect_of_frame {u : State}
    (frame : u = { s with regs := u.regs, ioTrace := u.ioTrace, ioInputs := u.ioInputs }) : Effect i s u := by
  rw [frame]
  exact .computes _ s.sreg _ _ (.inl rfl) fun _ => rfl

theorem effect_self (i : Instr) (s : State) : Effect i s s :=
  effect_of_frame rfl

/-- A branch, or a skip, moves `PC` alone. -/
theorem answers_branchIf {c : Bool} {k : BitVec 7} (h : branchIf c k s = .next t) : Answers i s t :=
  answers_setPc h (effect_self i s)

theorem effect_memRead {a : Word} {v : Byte} {u : State} (h : memRead a s = .ok (v, u)) : Effect i s u := by
  rw [memRead_frame h]
  exact effect_of_frame rfl

theorem answers_skipIf {c : Bool} {u : State} (h : skipIf c u = .next t) (effect : Effect i s u) :
    Answers i s t := by
  obtain ⟨n, rfl⟩ := skipIf_next h
  exact ⟨_, _, effect, rfl⟩

/-- `SBIC` and `SBIS`: a read, and then a skip. -/
theorem answers_read_skip {a : Word} {c : Byte → Bool}
    (h : (match memRead a s with
      | .ok (v, u) => skipIf (c v) u
      | .error f => .fault f) = .next t) : Answers i s t := by
  split at h
  next v u hread => exact answers_skipIf h (effect_memRead hread)
  next => cases h

/-- `SBI` and `CBI`: a read, and then a write of the same address. -/
theorem answers_read_write {a : Word} {f : Byte → Byte} (address : storeAddress i s = some a)
    (h : (match memRead a s with
      | .ok (v, u) => finish 1 (memWrite a (f v) u)
      | .error f => .fault f) = .next t) : Answers i s t := by
  split at h
  next v u hread =>
    refine answers_finish h fun w hw => ?_
    rw [memRead_frame hread] at hw
    exact .stores w.regs _ _ address hw
  next => cases h

/-! ## The accesses -/

theorem effect_loadFrom {a : Word} {d : Reg} {u : State} (h : loadFrom a d s = .ok u) : Effect i s u := by
  obtain ⟨v, w, hread, rfl⟩ := loadFrom_ok h
  rw [memRead_frame hread]
  exact effect_of_frame rfl

theorem effect_loadPostInc {p : Pointer} {d : Reg} {u : State} (h : loadPostInc p d s = .ok u) : Effect i s u := by
  obtain ⟨v, w, hread, rfl⟩ := loadPostInc_ok h
  rw [memRead_frame hread]
  exact effect_of_frame rfl

theorem effect_loadPreDec {p : Pointer} {d : Reg} {u : State} (h : loadPreDec p d s = .ok u) : Effect i s u := by
  obtain ⟨v, w, hread, rfl⟩ := loadPreDec_ok h
  rw [memRead_frame hread]
  exact effect_of_frame rfl

theorem effect_memWrite {a : Word} {v : Byte} {u : State} (address : storeAddress i s = some a)
    (h : memWrite a v s = .ok u) : Effect i s u :=
  .stores u.regs s.ioTrace s.ioInputs address h

theorem effect_storePostInc {p : Pointer} {r : Reg} {u : State}
    (address : storeAddress i s = some (readPointer s p)) (h : storePostInc p r s = .ok u) : Effect i s u := by
  obtain ⟨w, hw, rfl⟩ := storePostInc_ok h
  exact .stores (u := w) _ s.ioTrace s.ioInputs address hw

theorem effect_storePreDec {p : Pointer} {r : Reg} {u : State}
    (address : storeAddress i s = some (readPointer s p - 1#16)) (h : storePreDec p r s = .ok u) :
    Effect i s u := by
  obtain ⟨w, hw, rfl⟩ := storePreDec_ok h
  exact .stores (u := w) _ s.ioTrace s.ioInputs address hw

theorem effect_loadProgram {b : Nat} {d : Reg} {u : State} (h : loadProgram b d s = .ok u) : Effect i s u := by
  obtain ⟨v, -, rfl⟩ := loadProgram_ok h
  exact effect_of_frame rfl

theorem effect_loadProgramInc {d : Reg} {u : State} (h : loadProgramInc d s = .ok u) : Effect i s u := by
  obtain ⟨v, -, rfl⟩ := loadProgramInc_ok h
  exact effect_of_frame rfl

theorem effect_loadExtendedInc {d : Reg} {u : State} (group : s.cfg.has .elpm = true)
    (h : loadExtendedInc d s = .ok u) : Effect i s u := by
  obtain ⟨v, -, rfl⟩ := loadExtendedInc_ok h
  exact .incrementsRampz _ _ group

theorem effect_popInto {d : Reg} {u : State} (h : popInto d s = .ok u) : Effect i s u := by
  obtain ⟨v, w, hw, rfl⟩ := popInto_ok h
  exact .pops _ hw

theorem answers_callTo {n k : Nat} (call : isCall i = true) (h : callTo n k s = .next t) : Answers i s t := by
  obtain ⟨u, hu, rfl⟩ := callTo_next h
  exact ⟨k, u, .calls call hu, rfl⟩

/-! ## All instructions -/

theorem answers_bset {b : BitVec 3} (h : exec (.bset b) s = .next t) : Answers (.bset b) s t := by
  refine answers_nextAfter h ?_
  split
  next hb => exact .enables (.inr (by rw [show b = 7#3 from BitVec.eq_of_toNat_eq hb]))
  next hb =>
    refine Computed.effect ⟨rfl, .inl ?_, nofun⟩
    simp only [mapSreg_sreg, flagOf, Flag.bit, bitAt_putBit _ _ _ _ b.isLt, if_neg (Ne.symm hb)]

theorem answers_bclr {b : BitVec 3} (h : exec (.bclr b) s = .next t) : Answers (.bclr b) s t := by
  refine answers_nextAfter h (Computed.effect ⟨rfl, ?_, nofun⟩)
  by_cases hb : b.toNat = 7
  · exact .inr (.inr (by rw [show b = 7#3 from BitVec.eq_of_toNat_eq hb]))
  · left
    simp only [mapSreg_sreg, flagOf, Flag.bit, bitAt_putBit _ _ _ _ b.isLt, if_neg (Ne.symm hb)]

theorem answers_ret (h : exec .ret s = .next t) : Answers .ret s t := by
  obtain ⟨n, u, hu, rfl⟩ := returnTo_ok (answer_next h)
  exact ⟨n, u, .returns hu, rfl⟩

theorem answers_reti (h : exec .reti s = .next t) : Answers .reti s t := by
  obtain ⟨n, u, hu, rfl⟩ := leaveInterrupt_ok (answer_next h)
  exact ⟨n, _, .leaves rfl hu, rfl⟩

theorem answers_brk (h : exec .brk s = .next t) : Answers .brk s t := by
  replace h : execBrk s = .next t := h
  have h := (ifHas_next h).2
  split at h
  next hm => exact answers_nextAfter h (.stops rfl hm)
  next => exact answers_nextAfter h (effect_self _ s)

theorem answers_sleep (h : exec .sleep s = .next t) : Answers .sleep s t := by
  replace h : execSleep s = .next t := h
  unfold execSleep at h
  split at h
  next hm => exact answers_nextAfter h (.sleeps rfl hm)
  next => exact answers_nextAfter h (effect_self _ s)

theorem answers_wdr (h : exec .wdr s = .next t) : Answers .wdr s t := by
  replace h : execWdr s = .next t := h
  unfold execWdr at h
  split at h
  next => exact answers_nextAfter h (effect_of_frame rfl)
  next => exact answers_nextAfter h (effect_self _ s)

theorem answers_spm (h : exec .spm s = .next t) : Answers .spm s t := by
  replace h : execSpm s = .next t := h
  have h := (ifHas_next h).2
  split at h
  next => cases h
  next hm => exact answers_nextAfter h (.reprograms _ _ rfl hm)

/-- Every instruction that completes has one of the effects and then sets `PC`. -/
theorem exec_answers (h : exec i s = .next t) : Answers i s t := by
  cases i with
  | add d r | adc d r | sub d r | subi d k | sbc d r | sbci d k | and d r | andi d k | or d r | ori d k | eor d r
  | com d | neg d | sbr d k | cbr d k | inc d | dec d | tst d | clr d | cp d r | cpc d r | cpi d k | lsl d | lsr d
  | rol d | ror d | asr d | bst r b | sec | clc | sen | cln | sez | clz | ses | cls | sev | clv | set | clt | seh
  | clh => exact answers_nextAfter h (Computed.effect ⟨rfl, .inl (by simp), nofun⟩)
  | adiw d k | sbiw d k | mul d r | muls d r | mulsu d r | fmul d r | fmuls d r | fmulsu d r =>
    simp only [exec] at h
    exact answers_nextAfter (ifHas_next h).2 (Computed.effect ⟨rfl, .inl (by simp), nofun⟩)
  | ser d | mov d r | ldi d k | swap d | bld d b => exact answers_nextAfter h (effect_of_frame rfl)
  | movw d r =>
    simp only [exec] at h
    exact answers_nextAfter (ifHas_next h).2 (effect_of_frame rfl)
  | nop => exact answers_nextAfter h (effect_self _ s)
  | cli => exact answers_nextAfter h (Computed.effect ⟨rfl, .inr (.inl rfl), nofun⟩)
  | sei => exact answers_nextAfter h (.enables (.inl rfl))
  | bset b => exact answers_bset h
  | bclr b => exact answers_bclr h
  | rjmp k => exact answers_setPc h (effect_self _ s)
  | ijmp | eijmp | jmp k =>
    simp only [exec] at h
    exact answers_setPc (ifHas_next h).2 (effect_self _ s)
  | rcall k => exact answers_callTo rfl h
  | icall | eicall | call k =>
    simp only [exec] at h
    exact answers_callTo rfl (ifHas_next h).2
  | ret => exact answers_ret h
  | reti => exact answers_reti h
  | cpse d r | sbrc r b | sbrs r b => exact answers_skipIf h (effect_self _ s)
  | sbic a b => exact answers_read_skip (c := fun v => !bitAt v b.toNat) h
  | sbis a b => exact answers_read_skip (c := fun v => bitAt v b.toNat) h
  | brbs b k | brbc b k | breq k | brne k | brcs k | brcc k | brsh k | brlo k | brmi k | brpl k | brge k | brlt k
  | brhs k | brhc k | brts k | brtc k | brvs k | brvc k | brie k | brid k => exact answers_branchIf h
  | brk => exact answers_brk h
  | sleep => exact answers_sleep h
  | wdr => exact answers_wdr h
  | spm => exact answers_spm h
  | lds d k | ldX d =>
    simp only [exec] at h
    exact answers_finish (ifHas_next h).2 fun _ => effect_loadFrom
  | ldY d | ldZ d | lddY d q | lddZ d q =>
    simp only [exec] at h
    exact answers_finish (ifHasDisplaced_next h).2 fun _ => effect_loadFrom
  | inp d a => exact answers_finish h fun _ => effect_loadFrom
  | ldXInc d | ldYInc d | ldZInc d =>
    simp only [exec] at h
    exact answers_finish (ifDefined_next (ifHas_next h).2).2 fun _ => effect_loadPostInc
  | ldXDec d | ldYDec d | ldZDec d =>
    simp only [exec] at h
    exact answers_finish (ifDefined_next (ifHas_next h).2).2 fun _ => effect_loadPreDec
  | sts k r | stX r =>
    simp only [exec] at h
    exact answers_finish (ifHas_next h).2 fun _ => effect_memWrite rfl
  | stY r | stZ r | stdY q r | stdZ q r =>
    simp only [exec] at h
    exact answers_finish (ifHasDisplaced_next h).2 fun _ => effect_memWrite rfl
  | out a r => exact answers_finish h fun _ => effect_memWrite rfl
  | stXInc r | stYInc r | stZInc r =>
    simp only [exec] at h
    exact answers_finish (ifDefined_next (ifHas_next h).2).2 fun _ => effect_storePostInc rfl
  | stXDec r | stYDec r | stZDec r =>
    simp only [exec] at h
    exact answers_finish (ifDefined_next (ifHas_next h).2).2 fun _ => effect_storePreDec rfl
  | sbi a b => exact answers_read_write (f := fun v => putBit v b.toNat true) rfl h
  | cbi a b => exact answers_read_write (f := fun v => putBit v b.toNat false) rfl h
  | lpm | lpmZ d | elpm | elpmZ d =>
    simp only [exec] at h
    exact answers_finish (ifHas_next h).2 fun _ => effect_loadProgram
  | lpmZInc d =>
    simp only [exec] at h
    exact answers_finish (ifDefined_next (ifHas_next h).2).2 fun _ => effect_loadProgramInc
  | elpmZInc d =>
    obtain ⟨group, h⟩ := ifHas_next h
    exact answers_finish (ifDefined_next h).2 fun _ => effect_loadExtendedInc group
  | push r =>
    simp only [exec] at h
    exact answers_finish (ifHas_next h).2 fun _ => .pushes rfl
  | pop d =>
    simp only [exec] at h
    exact answers_finish (ifHas_next h).2 fun _ => effect_popInto

end

end Sys2Proof.Effects
end

section
/-! PROOFS. What every step and every instruction keeps: the invariant, the parameters, program memory, the mode,
`irq_inhibit`, SRAM and I. Each is a walk over the few effects an instruction can have. -/

namespace Sys2Proof.Effects

open Sys2Proof.Machine

/-! ## The invariant (10_state.md) -/

section
variable {i : Instr} {s t u : State}

theorem inv_withRegs (h : s.Inv) (regs : Vector Byte 32) : ({ s with regs := regs } : State).Inv :=
  ⟨h.1, h.2, h.3, h.4, h.5, h.6, h.7, h.8, h.9, h.10⟩

theorem inv_withExchange (h : s.Inv) (trace : List IoEvent) (inputs : List Byte) :
    ({ s with ioTrace := trace, ioInputs := inputs } : State).Inv :=
  ⟨h.1, h.2, h.3, h.4, h.5, h.6, h.7, h.8, h.9, h.10⟩

theorem hasRampz_of_elpm (h : s.Inv) (group : s.cfg.has .elpm = true) : s.cfg.hasRampz = true := by
  obtain ⟨-, -, -, -, -, -, elpm⟩ := h.cfg
  exact elpm group

theorem effect_keeps_inv (h : s.Inv) (effect : Effect i s u) : u.Inv := by
  cases effect with
  | computes regs sreg trace inputs => exact inv_withRegs ((inv_withExchange h trace inputs).mapSreg fun _ => sreg) regs
  | enables => exact h.enableInterrupts
  | stores regs trace inputs _ write => exact inv_withRegs ((inv_withExchange h trace inputs).memWrite write) regs
  | pushes _ pushed => exact h.push pushed
  | pops regs popped => exact inv_withRegs (h.pop popped) regs
  | calls _ pushed => exact h.pushPc pushed
  | returns popped => exact h.popPc popped
  | leaves _ popped => exact ((h.popPc popped).mapSreg _).withInhibit true
  | stops => exact h.withMode _
  | sleeps => exact h.withMode _
  | incrementsRampz regs v group => exact inv_withRegs (h.writeRampz v (hasRampz_of_elpm h group)) regs
  | reprograms trace edits => exact inv_withExchange (h.withEdits edits) trace s.ioInputs

theorem exec_keeps_inv (h : s.Inv) (answers : exec i s = .next t) : t.Inv := by
  obtain ⟨n, u, effect, rfl⟩ := exec_answers answers
  exact (effect_keeps_inv h effect).setPc n

/-! ## The step, by what the boundary brings (R305, R330) -/

theorem takeBoundary_frame {reset : Bool} (h : takeBoundary s = (reset, u)) :
    u = { s with requests := u.requests, env := u.env } := by
  unfold takeBoundary at h
  split at h <;> cases h <;> rfl

theorem step_of_reset (h : takeBoundary s = (true, u)) : step s = .next (resetEvent u) := by
  simp only [step, stepWith, h]

theorem step_of_interrupt {n : Nat} (h : takeBoundary s = (false, u)) (taken : interruptToTake u = some n) :
    step s = enterInterrupt n u := by
  simp only [step, stepWith, h, taken]

theorem step_of_no_interrupt (h : takeBoundary s = (false, u)) (none_taken : interruptToTake u = none) :
    step s = executeWith exec u := by
  simp only [step, stepWith, h, none_taken]

theorem executeWith_running (running : s.mode = .running) (h : fetch s = .ok i) :
    executeWith exec s = exec i { s with irqInhibit := false } := by
  simp only [executeWith, running, h]

theorem executeWith_fault {f : Fault} (running : s.mode = .running) (h : fetch s = .error f) :
    executeWith exec s = .fault f := by
  simp only [executeWith, running, h]

theorem executeWith_waiting (waiting : s.mode ≠ .running) : executeWith exec s = .next s := by
  unfold executeWith
  split
  next running => exact absurd running waiting
  all_goals rfl

/-- All that the execution of one instruction can answer. -/
theorem executeWith_cases (h : executeWith exec s = .next t) :
    (∃ i, s.mode = .running ∧ fetch s = .ok i ∧ exec i { s with irqInhibit := false } = .next t) ∨
      (s.mode ≠ .running ∧ t = s) := by
  by_cases running : s.mode = .running
  · left
    cases hf : fetch s with
    | ok i => exact ⟨i, running, rfl, by rwa [executeWith_running running hf] at h⟩
    | error f => rw [executeWith_fault running hf] at h; cases h
  · right
    rw [executeWith_waiting running] at h
    cases h
    exact ⟨running, rfl⟩

/-- All that a step can answer. -/
theorem step_cases (h : step s = .next t) : ∃ reset u, takeBoundary s = (reset, u) ∧
    ((reset = true ∧ t = resetEvent u) ∨
      (reset = false ∧ ∃ n, interruptToTake u = some n ∧ enterInterrupt n u = .next t) ∨
      (reset = false ∧ interruptToTake u = none ∧ executeWith exec u = .next t)) := by
  obtain ⟨reset, u, boundary⟩ : ∃ reset u, takeBoundary s = (reset, u) := ⟨_, _, rfl⟩
  refine ⟨reset, u, boundary, ?_⟩
  cases reset with
  | true =>
    rw [step_of_reset boundary] at h
    cases h
    exact .inl ⟨rfl, rfl⟩
  | false =>
    cases taken : interruptToTake u with
    | some n => exact .inr (.inl ⟨rfl, n, rfl, by rwa [step_of_interrupt boundary taken] at h⟩)
    | none => exact .inr (.inr ⟨rfl, rfl, by rwa [step_of_no_interrupt boundary taken] at h⟩)

/-- Settles O52: what the boundary brings, the entry of an interrupt and each effect of an instruction keep the
invariant. -/
theorem stepKeepsInvariant : Obligations.StepKeepsInvariant := by
  intro s t inv answers
  obtain ⟨reset, u, boundary, ⟨-, rfl⟩ | ⟨-, n, -, entered⟩ | ⟨-, -, executed⟩⟩ := step_cases answers
  all_goals have inv_u : u.Inv := by simpa [boundary] using inv.takeBoundary
  · exact inv_u.resetEvent
  · exact inv_u.enterInterrupt entered
  · obtain ⟨i, -, -, run⟩ | ⟨-, rfl⟩ := executeWith_cases executed
    · exact exec_keeps_inv (inv_u.withInhibit false) run
    · exact inv_u

/-! ## The mode, `irq_inhibit`, program memory, the parameters (R20, R40, R42) -/

/-- The parts of the state that no access changes. -/
structure SameControl (s u : State) : Prop where
  mode : u.mode = s.mode
  irqInhibit : u.irqInhibit = s.irqInhibit
  flash : u.flash = s.flash
  cfg : u.cfg = s.cfg

theorem memWrite_sameControl {a : Word} {v : Byte} (h : memWrite a v s = .ok u) : SameControl s u := by
  rw [memWrite_frame h]
  exact ⟨rfl, rfl, rfl, rfl⟩

theorem push_sameControl {v : Byte} (h : push v s = .ok u) : SameControl s u := by
  obtain ⟨w, hw, rfl⟩ := push_cases h
  obtain ⟨mode, irqInhibit, flash, cfg⟩ := memWrite_sameControl hw
  exact ⟨mode, irqInhibit, flash, cfg⟩

theorem pushPc_sameControl {n : Nat} (h : pushPc n s = .ok u) : SameControl s u := by
  rw [pushPc_frame h]
  exact ⟨rfl, rfl, rfl, rfl⟩

theorem pop_sameControl {v : Byte} (h : pop s = .ok (v, u)) : SameControl s u := by
  rw [pop_frame h]
  exact ⟨rfl, rfl, rfl, rfl⟩

theorem popPc_sameControl {n : Nat} (h : popPc s = .ok (n, u)) : SameControl s u := by
  rw [popPc_frame h]
  exact ⟨rfl, rfl, rfl, rfl⟩

/-- Of these parts an instruction changes none, or it is one of the six that change one. -/
theorem effect_control (effect : Effect i s u) :
    SameControl s u ∨
    ((i = .sei ∨ i = .bset 7#3) ∧ u = enableInterrupts s) ∨
    (i = .reti ∧ ∃ w, SameControl s w ∧ u = { w with sreg := u.sreg, irqInhibit := true }) ∨
    (i = .brk ∧ s.cfg.breakMode = .stop ∧ u = { s with mode := .stopped }) ∨
    (i = .sleep ∧ s.cfg.sleepModel = .sleep ∧ u = { s with mode := .sleeping }) ∨
    (i = .spm ∧ s.cfg.spmModel = .device ∧ u = { s with ioTrace := u.ioTrace, flash := u.flash }) := by
  cases effect with
  | computes => exact .inl ⟨rfl, rfl, rfl, rfl⟩
  | enables sets => exact .inr (.inl ⟨sets, rfl⟩)
  | stores regs trace inputs _ write =>
    obtain ⟨mode, irqInhibit, flash, cfg⟩ := memWrite_sameControl write
    exact .inl ⟨mode, irqInhibit, flash, cfg⟩
  | pushes _ pushed => exact .inl (push_sameControl pushed)
  | pops regs popped =>
    obtain ⟨mode, irqInhibit, flash, cfg⟩ := pop_sameControl popped
    exact .inl ⟨mode, irqInhibit, flash, cfg⟩
  | calls _ pushed => exact .inl (pushPc_sameControl pushed)
  | returns popped => exact .inl (popPc_sameControl popped)
  | leaves reti popped => exact .inr (.inr (.inl ⟨reti, _, popPc_sameControl popped, rfl⟩))
  | stops brk mode => exact .inr (.inr (.inr (.inl ⟨brk, mode, rfl⟩)))
  | sleeps sleep mode => exact .inr (.inr (.inr (.inr (.inl ⟨sleep, mode, rfl⟩))))
  | incrementsRampz => exact .inl ⟨rfl, rfl, rfl, rfl⟩
  | reprograms trace edits spm mode => exact .inr (.inr (.inr (.inr (.inr ⟨spm, mode, rfl⟩))))

/-- Settles O48: of the effects only those of `BREAK` and `SLEEP` change the mode. -/
theorem modeChangesOnlyByBreakAndSleep : Obligations.ModeChangesOnlyByBreakAndSleep := by
  intro i s t answers changed
  obtain ⟨n, u, effect, rfl⟩ := exec_answers answers
  obtain same | ⟨-, rfl⟩ | ⟨-, w, same, h⟩ | ⟨brk, mode, rfl⟩ | ⟨sleep, mode, rfl⟩ | ⟨-, -, h⟩ := effect_control effect
  · exact absurd same.mode changed
  · exact absurd rfl changed
  · exact absurd (by rw [h]; exact same.mode) changed
  · exact .inl ⟨brk, mode, rfl⟩
  · exact .inr ⟨sleep, mode, rfl⟩
  · exact absurd (by rw [h]; rfl) changed

theorem exec_enables_irqInhibit (sets : i = .sei ∨ i = .bset 7#3) (answers : exec i s = .next t) :
    t.irqInhibit = (s.irqInhibit || !readFlag s .i) := by
  obtain rfl | rfl := sets <;> (cases answers; rfl)

theorem exec_reti_irqInhibit (answers : exec .reti s = .next t) : t.irqInhibit = true := by
  obtain ⟨n, u, -, rfl⟩ := leaveInterrupt_ok (answer_next answers)
  rfl

/-- Settles O45: of the effects only those of `RETI` and of the word of `SEI` set `irq_inhibit`. -/
theorem inhibitSetOnlyBySeiAndReti : Obligations.InhibitSetOnlyBySeiAndReti := by
  intro i s t answers clear
  constructor
  · intro set
    obtain ⟨n, u, effect, rfl⟩ := exec_answers answers
    obtain same | ⟨sets, rfl⟩ | ⟨reti, -⟩ | ⟨-, -, rfl⟩ | ⟨-, -, rfl⟩ | ⟨-, -, h⟩ := effect_control effect
    · simp [same.irqInhibit, clear] at set
    · exact .inr ⟨sets, by simpa [clear] using set⟩
    · exact .inl reti
    · simp [clear] at set
    · simp [clear] at set
    · rw [h] at set
      simp [clear] at set
  · rintro (rfl | ⟨sets, disabled⟩)
    · exact exec_reti_irqInhibit answers
    · rw [exec_enables_irqInhibit sets answers, disabled]
      simp

theorem exec_cfg (answers : exec i s = .next t) : t.cfg = s.cfg := by
  obtain ⟨n, u, effect, rfl⟩ := exec_answers answers
  obtain same | ⟨-, rfl⟩ | ⟨-, w, same, h⟩ | ⟨-, -, rfl⟩ | ⟨-, -, rfl⟩ | ⟨-, -, h⟩ := effect_control effect
  · exact same.cfg
  · rfl
  · rw [h]
    exact same.cfg
  · rfl
  · rfl
  · rw [h]
    rfl

theorem exec_flash (answers : exec i s = .next t) (kept : i ≠ .spm ∨ s.cfg.spmModel = .refuse) :
    t.flash = s.flash := by
  obtain ⟨n, u, effect, rfl⟩ := exec_answers answers
  obtain same | ⟨-, rfl⟩ | ⟨-, w, same, h⟩ | ⟨-, -, rfl⟩ | ⟨-, -, rfl⟩ | ⟨spm, device, -⟩ := effect_control effect
  · exact same.flash
  · rfl
  · rw [h]
    exact same.flash
  · rfl
  · rfl
  · simp [spm, device] at kept

theorem takeBoundary_cfg {reset : Bool} (h : takeBoundary s = (reset, u)) : u.cfg = s.cfg := by
  rw [takeBoundary_frame h]

theorem enterInterrupt_cfg {n : Nat} (h : enterInterrupt n s = .next t) : t.cfg = s.cfg := by
  obtain ⟨u, hu, rfl⟩ := enterInterrupt_cases h
  exact (pushPc_sameControl hu).cfg

/-- Settles O53: no effect, no boundary and no entry changes the parameters; of the effects only that of `SPM`, which
needs `SPM_MODEL` = device, changes program memory. -/
theorem programMemoryChangesOnlyBySpm : Obligations.ProgramMemoryChangesOnlyBySpm := by
  refine ⟨fun s t answers => ?_, fun i s t => exec_flash⟩
  obtain ⟨reset, u, boundary, ⟨-, rfl⟩ | ⟨-, n, -, entered⟩ | ⟨-, -, executed⟩⟩ := step_cases answers
  all_goals rw [← takeBoundary_cfg boundary]
  · rfl
  · exact enterInterrupt_cfg entered
  · obtain ⟨i, -, -, run⟩ | ⟨-, rfl⟩ := executeWith_cases executed
    · exact (exec_cfg run :)
    · rfl

theorem interruptToTake_of_inhibit (inhibit : s.irqInhibit = true) : interruptToTake s = none := by
  simp [interruptToTake, inhibit]

/-- Settles O44: with `irq_inhibit` the step is an instruction, and what it leaves in `irq_inhibit` is O45. -/
theorem inhibitDelaysOneInstruction : Obligations.InhibitDelaysOneInstruction := by
  intro s u t boundary running inhibit answers
  have frame := takeBoundary_frame boundary
  have running_u : u.mode = .running := by rw [frame]; exact running
  have inhibit_u : u.irqInhibit = true := by rw [frame]; exact inhibit
  have sreg_u : u.sreg = s.sreg := by rw [frame]
  rw [step_of_no_interrupt boundary (interruptToTake_of_inhibit inhibit_u)] at answers
  obtain ⟨i, -, fetched, run⟩ | ⟨waiting, -⟩ := executeWith_cases answers
  · refine ⟨i, fetched, run, fun set => ?_⟩
    rw [← readFlag_congr sreg_u]
    exact (inhibitSetOnlyBySeiAndReti i _ t run rfl).mp set
  · exact absurd running_u waiting

/-! ## SRAM and the flags (R14, R204, R304) -/

theorem regionOf_eq_sreg {c : Config} {a : Word} (h : regionOf c a = .sreg) : a = 0x5F#16 := by
  apply BitVec.eq_of_toNat_eq
  unfold regionOf ioRegion at h
  split_ifs at h
  simp only [BitVec.reduceToNat]
  omega

theorem memWrite_sram {a b : Word} {v : Byte} (h : memWrite a v s = .ok u) (other : a ≠ b) :
    sramAt u b = sramAt s b := by
  obtain ⟨d, -, rfl⟩ | ⟨-, rfl⟩ | ⟨-, rfl⟩ | ⟨-, rfl⟩ | ⟨-, rfl⟩ | ⟨-, rfl⟩ | ⟨io, -, rfl⟩ | ⟨-, rfl⟩ :=
    memWrite_cases h
  case inr.inr.inr.inr.inr.inr.inr =>
    have : a.toNat ≠ b.toNat := fun h => other (BitVec.eq_of_toNat_eq h)
    simp [sramAt, sramByte_write, this]
  all_goals rfl

theorem memWrite_sreg {a : Word} {v : Byte} (h : memWrite a v s = .ok u) : u.sreg = s.sreg ∨ a = 0x5F#16 := by
  obtain ⟨d, -, rfl⟩ | ⟨hr, -⟩ | ⟨-, rfl⟩ | ⟨-, rfl⟩ | ⟨-, rfl⟩ | ⟨-, rfl⟩ | ⟨io, -, rfl⟩ | ⟨-, rfl⟩ :=
    memWrite_cases h
  case inr.inl => exact .inr (regionOf_eq_sreg hr)
  all_goals exact .inl rfl

theorem push_sram {b : Word} {v : Byte} (h : push v s = .ok u) (other : readSp s ≠ b) : sramAt u b = sramAt s b := by
  obtain ⟨w, hw, rfl⟩ := push_cases h
  exact (memWrite_sram hw other :)

theorem push_sreg {v : Byte} (h : push v s = .ok u) : u.sreg = s.sreg ∨ readSp s = 0x5F#16 := by
  obtain ⟨w, hw, rfl⟩ := push_cases h
  exact (memWrite_sreg hw :)

theorem sramAt_congr {a : Word} (h : u.sram = s.sram) : sramAt u a = sramAt s a := by
  rw [sramAt, sramAt, h]

/-- An instruction other than a call changes SRAM at most at the address it stores to. -/
theorem effect_sram {a : Word} (effect : Effect i s u) (no_call : isCall i = false)
    (other : storeAddress i s ≠ some a) : sramAt u a = sramAt s a := by
  cases effect with
  | stores regs trace inputs address write =>
    rw [address] at other
    exact (memWrite_sram write (by simpa using other) :)
  | pushes address pushed =>
    rw [address] at other
    exact push_sram pushed (by simpa using other)
  | pops regs popped => exact sramAt_congr (by rw [pop_frame popped])
  | calls call => simp [call] at no_call
  | returns popped | leaves _ popped => exact sramAt_congr (by rw [popPc_frame popped] <;> rfl)
  | computes | enables | stops | sleeps | incrementsRampz | reprograms => rfl

/-- The instructions that write I as what they are for. -/
def writesI (i : Instr) : Prop := i ∈ [Instr.sei, .cli, .bset 7#3, .bclr 7#3, .reti]

/-- What an instruction other than a call does to `SREG`, where it is not a store there. -/
theorem effect_sreg (effect : Effect i s u) (no_call : isCall i = false) :
    ((readFlag u .i = readFlag s .i ∨ writesI i) ∧ (isTransfer i = true → u.sreg = s.sreg)) ∨
      storeAddress i s = some 0x5F#16 := by
  have of_same : u.sreg = s.sreg →
      (readFlag u .i = readFlag s .i ∨ writesI i) ∧ (isTransfer i = true → u.sreg = s.sreg) :=
    fun same => ⟨.inl (readFlag_congr same _), fun _ => same⟩
  cases effect with
  | computes regs sreg trace inputs interrupts transfer =>
    refine .inl ⟨?_, transfer⟩
    obtain same | rfl | rfl := interrupts
    · exact .inl same
    · exact .inr (by simp [writesI])
    · exact .inr (by simp [writesI])
  | enables sets => obtain rfl | rfl := sets <;> exact .inl ⟨.inr (by simp [writesI]), nofun⟩
  | leaves reti => exact .inl ⟨.inr (by simp [writesI, reti]), by simp [reti, isTransfer]⟩
  | stores regs trace inputs address write =>
    obtain same | rfl := memWrite_sreg write
    · exact .inl (of_same same)
    · exact .inr address
  | pushes address pushed =>
    obtain same | at_sreg := push_sreg pushed
    · exact .inl (of_same same)
    · exact .inr (by rw [address, at_sreg])
  | calls call => simp [call] at no_call
  | pops regs popped => exact .inl (of_same (by rw [pop_frame popped]))
  | returns popped => exact .inl (of_same (by rw [popPc_frame popped]))
  | stops | sleeps | incrementsRampz | reprograms => exact .inl (of_same rfl)

/-- Settles O54: of the effects only a store and a push write SRAM, at the address the instruction stores to, and only
they and the instructions for I change I. -/
theorem storesAndStatusFrame : Obligations.StoresAndStatusFrame := by
  intro i s t answers no_call
  obtain ⟨n, u, effect, rfl⟩ := exec_answers answers
  refine ⟨fun a other => (effect_sram effect no_call other :), fun changed => ?_, fun transfer changed => ?_⟩
  · obtain ⟨same | writes, -⟩ | stored := effect_sreg effect no_call
    · exact absurd same changed
    · exact .inl writes
    · exact .inr stored
  · obtain ⟨-, kept⟩ | stored := effect_sreg effect no_call
    · exact absurd (kept transfer) changed
    · exact stored

end

end Sys2Proof.Effects
end

section
/-! PROOFS. The encoder and the decoder are inverse (R78 to R81, R90). A mask's runs of bits are the fields that an opcode
fixes and the operands fill the others, so for a format it is arithmetic that its operands come back from its word, and its
word from its operands. A row of the opcode map is a format with an opcode. -/

namespace Sys2Proof.Encoding

open Sys2Proof.Machine

/-! ## Fixed fields -/

theorem field_eq_field_iff_bits (w p : Word) (lo n : Nat) :
    field w lo n = field p lo n ↔ ∀ j < n, w.getLsbD (lo + j) = p.getLsbD (lo + j) := by
  rw [field_eq_iff_bits]
  refine forall_congr' fun j => ?_
  rw [← (field_eq_iff_bits p lo n _).mp rfl j]
  by_cases hj : j < n <;> simp [hj]

/-- A test under a mask is a test of the fields that are the mask's runs of bits. -/
theorem and_mask_eq_iff_fields {m p : Word} (runs : List (Nat × Nat))
    (covers : ∀ i : Fin 16, m.getLsbD i = runs.any fun r => decide (r.1 ≤ i.val ∧ i.val < r.1 + r.2))
    (pat : p &&& m = p) (w : Word) :
    w &&& m = p ↔ ∀ r ∈ runs, field w r.1 r.2 = field p r.1 r.2 := by
  simp only [field_eq_field_iff_bits]
  constructor
  · intro h r hr j hj
    by_cases hlt : r.1 + j < 16
    · have masked : m.getLsbD (r.1 + j) = true := by
        rw [covers ⟨r.1 + j, hlt⟩, List.any_eq_true]
        exact ⟨r, hr, by simp [hj]⟩
      rw [← h, BitVec.getLsbD_and, masked, Bool.and_true]
    · rw [BitVec.getLsbD_of_ge _ _ (by omega), BitVec.getLsbD_of_ge _ _ (by omega)]
  · intro h
    refine BitVec.eq_of_getLsbD_eq fun i hi => ?_
    rw [BitVec.getLsbD_and]
    cases masked : m.getLsbD i with
    | true =>
      rw [covers ⟨i, hi⟩, List.any_eq_true] at masked
      obtain ⟨r, hr, hin⟩ := masked
      have hin : r.1 ≤ i ∧ i < r.1 + r.2 := by simpa using hin
      have same := h r hr (i - r.1) (by omega)
      rw [Nat.add_sub_cancel' hin.1] at same
      rw [same, Bool.and_true]
    | false => rw [← pat, BitVec.getLsbD_and, masked, Bool.and_false, Bool.and_false]

/-- The words of an opcode `op` under a mask. -/
def opcode (mask : Word) (op : Nat) : Pattern := ⟨mask, BitVec.ofNat 16 op⟩

/-- The opcode has no bit outside the mask. -/
def Fits (mask : Word) (op : Nat) : Prop := BitVec.ofNat 16 op &&& mask = BitVec.ofNat 16 op

section
variable {op : Nat} {w : Word}

theorem opcode_matches_iff {mask : Word} (runs : List (Nat × Nat)) (lt : op < 65536) (fits : Fits mask op)
    (covers : ∀ i : Fin 16, mask.getLsbD i = runs.any fun r => decide (r.1 ≤ i.val ∧ i.val < r.1 + r.2)) :
    (opcode mask op).Matches w = true ↔
      ∀ r ∈ runs, w.toNat / 2 ^ r.1 % 2 ^ r.2 = op / 2 ^ r.1 % 2 ^ r.2 := by
  rw [Pattern.Matches, beq_iff_eq, opcode, and_mask_eq_iff_fields runs covers fits]
  simp only [field, BitVec.toNat_ofNat, Nat.mod_eq_of_lt lt]

theorem top_field {x : Nat} (lt : x < 65536) {a b : Nat} (all : a * b = 65536) : x / a % b = x / a :=
  Nat.mod_eq_of_lt (Nat.div_lt_of_lt_mul (all ▸ lt))

/-! ## Formats -/

/-- `enc` and `dec` are inverse between the operands that are `ok` and the words of the pattern. -/
structure Codes {α : Type} (p : Pattern) (enc : α → Word) (dec : Word → α) (ok : α → Bool) : Prop where
  matches_enc : ∀ a, ok a = true → p.Matches (enc a) = true
  dec_enc : ∀ a, ok a = true → dec (enc a) = a
  ok_dec : ∀ w, ok (dec w) = true
  enc_dec : ∀ w, p.Matches w = true → enc (dec w) = w

theorem upperHalf_iff (d : Reg) : upperHalf d = true ↔ 16 ≤ d.val := decide_eq_true_iff

theorem r16to23_iff (d : Reg) : r16to23 d = true ↔ 16 ≤ d.val ∧ d.val ≤ 23 := decide_eq_true_iff

theorem wordPair_iff (d : Reg) : wordPair d = true ↔ 24 ≤ d.val ∧ d.val % 2 = 0 := decide_eq_true_iff

theorem evenReg_iff (d : Reg) : evenReg d = true ↔ d.val % 2 = 0 := decide_eq_true_iff

theorem matches_F000 (lt : op < 65536) (fits : Fits 0xF000#16 op) :
    (opcode 0xF000#16 op).Matches w = true ↔
      w.toNat / 4096 = op / 4096 := by
  simpa (disch := decide) [top_field w.isLt, top_field lt] using
    opcode_matches_iff (w := w) [(12, 4)] lt fits (by decide)

theorem matches_F800 (lt : op < 65536) (fits : Fits 0xF800#16 op) :
    (opcode 0xF800#16 op).Matches w = true ↔
      w.toNat / 2048 = op / 2048 := by
  simpa (disch := decide) [top_field w.isLt, top_field lt] using
    opcode_matches_iff (w := w) [(11, 5)] lt fits (by decide)

theorem matches_FC00 (lt : op < 65536) (fits : Fits 0xFC00#16 op) :
    (opcode 0xFC00#16 op).Matches w = true ↔
      w.toNat / 1024 = op / 1024 := by
  simpa (disch := decide) [top_field w.isLt, top_field lt] using
    opcode_matches_iff (w := w) [(10, 6)] lt fits (by decide)

theorem matches_FF00 (lt : op < 65536) (fits : Fits 0xFF00#16 op) :
    (opcode 0xFF00#16 op).Matches w = true ↔
      w.toNat / 256 = op / 256 := by
  simpa (disch := decide) [top_field w.isLt, top_field lt] using
    opcode_matches_iff (w := w) [(8, 8)] lt fits (by decide)

theorem matches_FE0F (lt : op < 65536) (fits : Fits 0xFE0F#16 op) :
    (opcode 0xFE0F#16 op).Matches w = true ↔
      w.toNat / 512 = op / 512 ∧ w.toNat % 16 = op % 16 := by
  simpa (disch := decide) [top_field w.isLt, top_field lt] using
    opcode_matches_iff (w := w) [(9, 7), (0, 4)] lt fits (by decide)

theorem matches_FE0E (lt : op < 65536) (fits : Fits 0xFE0E#16 op) :
    (opcode 0xFE0E#16 op).Matches w = true ↔
      w.toNat / 512 = op / 512 ∧ w.toNat / 2 % 8 = op / 2 % 8 := by
  simpa (disch := decide) [top_field w.isLt, top_field lt] using
    opcode_matches_iff (w := w) [(9, 7), (1, 3)] lt fits (by decide)

theorem matches_FE08 (lt : op < 65536) (fits : Fits 0xFE08#16 op) :
    (opcode 0xFE08#16 op).Matches w = true ↔
      w.toNat / 512 = op / 512 ∧ w.toNat / 8 % 2 = op / 8 % 2 := by
  simpa (disch := decide) [top_field w.isLt, top_field lt] using
    opcode_matches_iff (w := w) [(9, 7), (3, 1)] lt fits (by decide)

theorem matches_FF88 (lt : op < 65536) (fits : Fits 0xFF88#16 op) :
    (opcode 0xFF88#16 op).Matches w = true ↔
      w.toNat / 128 = op / 128 ∧ w.toNat / 8 % 2 = op / 8 % 2 := by
  simpa (disch := decide) [top_field w.isLt, top_field lt] using
    opcode_matches_iff (w := w) [(7, 9), (3, 1)] lt fits (by decide)

theorem matches_FF8F (lt : op < 65536) (fits : Fits 0xFF8F#16 op) :
    (opcode 0xFF8F#16 op).Matches w = true ↔
      w.toNat / 128 = op / 128 ∧ w.toNat % 16 = op % 16 := by
  simpa (disch := decide) [top_field w.isLt, top_field lt] using
    opcode_matches_iff (w := w) [(7, 9), (0, 4)] lt fits (by decide)

theorem matches_D208 (lt : op < 65536) (fits : Fits 0xD208#16 op) :
    (opcode 0xD208#16 op).Matches w = true ↔
      w.toNat / 16384 = op / 16384 ∧ w.toNat / 4096 % 2 = op / 4096 % 2 ∧
      w.toNat / 512 % 2 = op / 512 % 2 ∧ w.toNat / 8 % 2 = op / 8 % 2 := by
  simpa (disch := decide) [top_field w.isLt, top_field lt] using
    opcode_matches_iff (w := w) [(14, 2), (12, 1), (9, 1), (3, 1)] lt fits (by decide)

/-- Format RR. -/
theorem codes_rr (lt : op < 65536 := by decide) (fits : Fits 0xFC00#16 op := by exact rfl)
    (free : op % 1024 = 0 := by decide) :
    Codes (opcode 0xFC00#16 op) (fun x : Reg × Reg => encRR op x.1 x.2) (fun w => (fieldD w, fieldR w))
      fun _ => true := by
  have toNat_enc (d r : Reg) : (encRR op d r).toNat = op + r.val / 16 * 512 + d.val * 16 + r.val % 16 := by
    rw [encRR, BitVec.toNat_ofNat, Nat.mod_eq_of_lt (by omega)]
  refine ⟨fun ⟨d, r⟩ _ => ?_, fun ⟨d, r⟩ _ => ?_, fun _ => rfl, fun w h => ?_⟩
  · rw [matches_FC00 lt fits, toNat_enc]
    omega
  · simp [toNat_enc, fieldD, fieldR, field, Fin.ext_iff]
    omega
  · rw [matches_FC00 lt fits] at h
    simp [← BitVec.toNat_inj, toNat_enc, fieldD, fieldR, field]
    omega

/-- Format RI. -/
theorem codes_ri (lt : op < 65536 := by decide) (fits : Fits 0xF000#16 op := by exact rfl)
    (free : op % 4096 = 0 := by decide) :
    Codes (opcode 0xF000#16 op) (fun x : Reg × BitVec 8 => encRI op x.1 x.2) (fun w => (fieldD16 w, fieldK8 w))
      fun x => upperHalf x.1 := by
  have toNat_enc (d : Reg) (k : BitVec 8) :
      (encRI op d k).toNat = op + k.toNat / 16 * 256 + d.val % 16 * 16 + k.toNat % 16 := by
    rw [encRI, BitVec.toNat_ofNat, Nat.mod_eq_of_lt (by omega)]
  refine ⟨fun ⟨d, k⟩ hd => ?_, fun ⟨d, k⟩ hd => ?_, fun w => ?_, fun w h => ?_⟩
  · rw [matches_F000 lt fits, toNat_enc]
    omega
  · simp [upperHalf_iff] at hd
    simp [toNat_enc, fieldD16, fieldK8, field, Fin.ext_iff, ← BitVec.toNat_inj]
    omega
  · simp [upperHalf_iff, fieldD16, field]
    omega
  · rw [matches_F000 lt fits] at h
    simp [← BitVec.toNat_inj, toNat_enc, fieldD16, fieldK8, field]
    omega

/-- Format WI. -/
theorem codes_wi (lt : op < 65536 := by decide) (fits : Fits 0xFF00#16 op := by exact rfl)
    (free : op % 256 = 0 := by decide) :
    Codes (opcode 0xFF00#16 op) (fun x : Reg × BitVec 6 => encWI op x.1 x.2) (fun w => (fieldPair w, fieldK6 w))
      fun x => wordPair x.1 := by
  have toNat_enc (d : Reg) (k : BitVec 6) :
      (encWI op d k).toNat = op + k.toNat / 16 * 64 + (d.val - 24) / 2 * 16 + k.toNat % 16 := by
    rw [encWI, BitVec.toNat_ofNat, Nat.mod_eq_of_lt (by omega)]
  refine ⟨fun ⟨d, k⟩ hd => ?_, fun ⟨d, k⟩ hd => ?_, fun w => ?_, fun w h => ?_⟩
  · rw [matches_FF00 lt fits, toNat_enc]
    omega
  · simp [wordPair_iff] at hd
    simp [toNat_enc, fieldPair, fieldK6, field, Fin.ext_iff, ← BitVec.toNat_inj]
    omega
  · simp [wordPair_iff, fieldPair, field]
    omega
  · rw [matches_FF00 lt fits] at h
    simp [← BitVec.toNat_inj, toNat_enc, fieldPair, fieldK6, field]
    omega

/-- Formats R1, LDST and the first word of ABS16. -/
theorem codes_r1 (lt : op < 65536 := by decide) (fits : Fits 0xFE0F#16 op := by exact rfl)
    (free : op % 512 < 16 := by decide) :
    Codes (opcode 0xFE0F#16 op) (encR1 op) fieldD fun _ => true := by
  have toNat_enc (d : Reg) : (encR1 op d).toNat = op + d.val * 16 := by
    rw [encR1, BitVec.toNat_ofNat, Nat.mod_eq_of_lt (by omega)]
  refine ⟨fun d _ => ?_, fun d _ => ?_, fun _ => rfl, fun w h => ?_⟩
  · rw [matches_FE0F lt fits, toNat_enc]
    omega
  · simp [toNat_enc, fieldD, field, Fin.ext_iff]
    omega
  · rw [matches_FE0F lt fits] at h
    simp [← BitVec.toNat_inj, toNat_enc, fieldD, field]
    omega

/-- `MOVW`. -/
theorem codes_movw (lt : op < 65536 := by decide) (fits : Fits 0xFF00#16 op := by exact rfl)
    (free : op % 256 = 0 := by decide) :
    Codes (opcode 0xFF00#16 op) (fun x : Reg × Reg => encMovw op x.1 x.2) (fun w => (fieldEvenD w, fieldEvenR w))
      fun x => evenReg x.1 && evenReg x.2 := by
  have toNat_enc (d r : Reg) : (encMovw op d r).toNat = op + d.val / 2 * 16 + r.val / 2 := by
    rw [encMovw, BitVec.toNat_ofNat, Nat.mod_eq_of_lt (by omega)]
  refine ⟨fun ⟨d, r⟩ hd => ?_, fun ⟨d, r⟩ hd => ?_, fun w => ?_, fun w h => ?_⟩
  · rw [matches_FF00 lt fits, toNat_enc]
    omega
  · simp [evenReg_iff] at hd
    simp [toNat_enc, fieldEvenD, fieldEvenR, field, Fin.ext_iff]
    omega
  · simp [evenReg_iff, fieldEvenD, fieldEvenR, field]
  · rw [matches_FF00 lt fits] at h
    simp [← BitVec.toNat_inj, toNat_enc, fieldEvenD, fieldEvenR, field]
    omega

/-- `MULS`. -/
theorem codes_muls (lt : op < 65536 := by decide) (fits : Fits 0xFF00#16 op := by exact rfl)
    (free : op % 256 = 0 := by decide) :
    Codes (opcode 0xFF00#16 op) (fun x : Reg × Reg => encMuls op x.1 x.2) (fun w => (fieldD16 w, fieldR16 w))
      fun x => upperHalf x.1 && upperHalf x.2 := by
  have toNat_enc (d r : Reg) : (encMuls op d r).toNat = op + d.val % 16 * 16 + r.val % 16 := by
    rw [encMuls, BitVec.toNat_ofNat, Nat.mod_eq_of_lt (by omega)]
  refine ⟨fun ⟨d, r⟩ hd => ?_, fun ⟨d, r⟩ hd => ?_, fun w => ?_, fun w h => ?_⟩
  · rw [matches_FF00 lt fits, toNat_enc]
    omega
  · simp [upperHalf_iff] at hd
    simp [toNat_enc, fieldD16, fieldR16, field, Fin.ext_iff]
    omega
  · simp [upperHalf_iff, fieldD16, fieldR16, field]
    omega
  · rw [matches_FF00 lt fits] at h
    simp [← BitVec.toNat_inj, toNat_enc, fieldD16, fieldR16, field]
    omega

/-- Format R3R3. -/
theorem codes_r3r3 (lt : op < 65536 := by decide) (fits : Fits 0xFF88#16 op := by exact rfl)
    (free : op % 128 < 16 ∧ op % 8 = 0 := by decide) :
    Codes (opcode 0xFF88#16 op) (fun x : Reg × Reg => encR3R3 op x.1 x.2) (fun w => (fieldD3 w, fieldR3 w))
      fun x => r16to23 x.1 && r16to23 x.2 := by
  have toNat_enc (d r : Reg) : (encR3R3 op d r).toNat = op + d.val % 8 * 16 + r.val % 8 := by
    rw [encR3R3, BitVec.toNat_ofNat, Nat.mod_eq_of_lt (by omega)]
  refine ⟨fun ⟨d, r⟩ hd => ?_, fun ⟨d, r⟩ hd => ?_, fun w => ?_, fun w h => ?_⟩
  · rw [matches_FF88 lt fits, toNat_enc]
    omega
  · simp [r16to23_iff] at hd
    simp [toNat_enc, fieldD3, fieldR3, field, Fin.ext_iff]
    omega
  · simp [r16to23_iff, fieldD3, fieldR3, field]
    omega
  · rw [matches_FF88 lt fits] at h
    simp [← BitVec.toNat_inj, toNat_enc, fieldD3, fieldR3, field]
    omega

/-- Format REL12. -/
theorem codes_rel12 (lt : op < 65536 := by decide) (fits : Fits 0xF000#16 op := by exact rfl)
    (free : op % 4096 = 0 := by decide) :
    Codes (opcode 0xF000#16 op) (encRel12 op) fieldRel12 fun _ => true := by
  have toNat_enc (k : BitVec 12) : (encRel12 op k).toNat = op + k.toNat := by
    rw [encRel12, BitVec.toNat_ofNat, Nat.mod_eq_of_lt (by omega)]
  refine ⟨fun k _ => ?_, fun k _ => ?_, fun _ => rfl, fun w h => ?_⟩
  · rw [matches_F000 lt fits, toNat_enc]
    omega
  · simp [toNat_enc, fieldRel12, field, ← BitVec.toNat_inj]
    omega
  · rw [matches_F000 lt fits] at h
    simp [← BitVec.toNat_inj, toNat_enc, fieldRel12, field]
    omega

/-- Format BR. -/
theorem codes_br (lt : op < 65536 := by decide) (fits : Fits 0xFC00#16 op := by exact rfl)
    (free : op % 1024 = 0 := by decide) :
    Codes (opcode 0xFC00#16 op) (fun x : BitVec 3 × BitVec 7 => encBr op x.1 x.2)
      (fun w => (fieldB w, fieldRel7 w)) fun _ => true := by
  have toNat_enc (b : BitVec 3) (k : BitVec 7) : (encBr op b k).toNat = op + k.toNat * 8 + b.toNat := by
    rw [encBr, BitVec.toNat_ofNat, Nat.mod_eq_of_lt (by omega)]
  refine ⟨fun ⟨b, k⟩ _ => ?_, fun ⟨b, k⟩ _ => ?_, fun _ => rfl, fun w h => ?_⟩
  · rw [matches_FC00 lt fits, toNat_enc]
    omega
  · simp [toNat_enc, fieldB, fieldRel7, field, ← BitVec.toNat_inj]
    omega
  · rw [matches_FC00 lt fits] at h
    simp [← BitVec.toNat_inj, toNat_enc, fieldB, fieldRel7, field]
    omega

/-- Format RB. -/
theorem codes_rb (lt : op < 65536 := by decide) (fits : Fits 0xFE08#16 op := by exact rfl)
    (free : op % 512 = 0 := by decide) :
    Codes (opcode 0xFE08#16 op) (fun x : Reg × BitVec 3 => encRB op x.1 x.2) (fun w => (fieldD w, fieldB w))
      fun _ => true := by
  have toNat_enc (r : Reg) (b : BitVec 3) : (encRB op r b).toNat = op + r.val * 16 + b.toNat := by
    rw [encRB, BitVec.toNat_ofNat, Nat.mod_eq_of_lt (by omega)]
  refine ⟨fun ⟨r, b⟩ _ => ?_, fun ⟨r, b⟩ _ => ?_, fun _ => rfl, fun w h => ?_⟩
  · rw [matches_FE08 lt fits, toNat_enc]
    omega
  · simp [toNat_enc, fieldD, fieldB, field, Fin.ext_iff, ← BitVec.toNat_inj]
    omega
  · rw [matches_FE08 lt fits] at h
    simp [← BitVec.toNat_inj, toNat_enc, fieldD, fieldB, field]
    omega

/-- Format AB. -/
theorem codes_ab (lt : op < 65536 := by decide) (fits : Fits 0xFF00#16 op := by exact rfl)
    (free : op % 256 = 0 := by decide) :
    Codes (opcode 0xFF00#16 op) (fun x : BitVec 5 × BitVec 3 => encAB op x.1 x.2) (fun w => (fieldA5 w, fieldB w))
      fun _ => true := by
  have toNat_enc (a : BitVec 5) (b : BitVec 3) : (encAB op a b).toNat = op + a.toNat * 8 + b.toNat := by
    rw [encAB, BitVec.toNat_ofNat, Nat.mod_eq_of_lt (by omega)]
  refine ⟨fun ⟨a, b⟩ _ => ?_, fun ⟨a, b⟩ _ => ?_, fun _ => rfl, fun w h => ?_⟩
  · rw [matches_FF00 lt fits, toNat_enc]
    omega
  · simp [toNat_enc, fieldA5, fieldB, field, ← BitVec.toNat_inj]
    omega
  · rw [matches_FF00 lt fits] at h
    simp [← BitVec.toNat_inj, toNat_enc, fieldA5, fieldB, field]
    omega

/-- Format IO. -/
theorem codes_io (lt : op < 65536 := by decide) (fits : Fits 0xF800#16 op := by exact rfl)
    (free : op % 2048 = 0 := by decide) :
    Codes (opcode 0xF800#16 op) (fun x : Reg × BitVec 6 => encIO op x.1 x.2) (fun w => (fieldD w, fieldA6 w))
      fun _ => true := by
  have toNat_enc (d : Reg) (a : BitVec 6) :
      (encIO op d a).toNat = op + a.toNat / 16 * 512 + d.val * 16 + a.toNat % 16 := by
    rw [encIO, BitVec.toNat_ofNat, Nat.mod_eq_of_lt (by omega)]
  refine ⟨fun ⟨d, a⟩ _ => ?_, fun ⟨d, a⟩ _ => ?_, fun _ => rfl, fun w h => ?_⟩
  · rw [matches_F800 lt fits, toNat_enc]
    omega
  · simp [toNat_enc, fieldD, fieldA6, field, Fin.ext_iff, ← BitVec.toNat_inj]
    omega
  · rw [matches_F800 lt fits] at h
    simp [← BitVec.toNat_inj, toNat_enc, fieldD, fieldA6, field]
    omega

/-- A word from the fields of format DISP. -/
theorem sum_disp (w : Nat) : w / 16384 * 16384 + w / 4096 % 2 * 4096 + w / 512 % 2 * 512 + w / 8 % 2 * 8 +
    w / 8192 % 2 * 8192 + w / 1024 % 4 * 1024 + w / 16 % 32 * 16 + w % 8 = w := by
  have h1 : w = w / 8 * 8 + w % 8 := by omega
  have h8 : w / 8 = w / 16 * 2 + w / 8 % 2 := by omega
  have h16 : w / 16 = w / 512 * 32 + w / 16 % 32 := by omega
  have h512 : w / 512 = w / 1024 * 2 + w / 512 % 2 := by omega
  have h1024 : w / 1024 = w / 4096 * 4 + w / 1024 % 4 := by omega
  have h4096 : w / 4096 = w / 8192 * 2 + w / 4096 % 2 := by omega
  have h8192 : w / 8192 = w / 16384 * 2 + w / 8192 % 2 := by omega
  linarith

/-- The fields of format DISP from a word: the fixed ones `t`, `u`, `s`, `y`, the three parts `a`, `b`, `c` of `q`, and
the register `d`. -/
theorem fields_disp {w t u s y a b c d : Nat} (hu : u < 2) (hs : s < 2) (hy : y < 2) (ha : a < 2) (hb : b < 4)
    (hc : c < 8) (hd : d < 32)
    (sum : t * 16384 + u * 4096 + s * 512 + y * 8 + a * 8192 + b * 1024 + d * 16 + c = w) :
    (w / 16384 = t ∧ w / 4096 % 2 = u ∧ w / 512 % 2 = s ∧ w / 8 % 2 = y) ∧
      w / 8192 % 2 = a ∧ w / 1024 % 4 = b ∧ w / 16 % 32 = d ∧ w % 8 = c := by
  have h16384 : w / 16384 = t := by omega
  have h8192 : w / 8192 = 2 * t + a := by omega
  have h4096 : w / 4096 = 4 * t + 2 * a + u := by omega
  have h1024 : w / 1024 = 16 * t + 8 * a + 4 * u + b := by omega
  have h512 : w / 512 = 32 * t + 16 * a + 8 * u + 2 * b + s := by omega
  have h16 : w / 16 = 1024 * t + 512 * a + 256 * u + 64 * b + 32 * s + d := by omega
  have h8 : w / 8 = 2048 * t + 1024 * a + 512 * u + 128 * b + 64 * s + 2 * d + y := by omega
  rw [h16384, h8192, h4096, h1024, h512, h16, h8]
  and_intros <;> omega

/-- The six bits of `q`. -/
theorem fields_q {a b c : Nat} (ha : a < 2) (hb : b < 4) (hc : c < 8) :
    (a * 32 + b * 8 + c) % 64 / 32 = a ∧ (a * 32 + b * 8 + c) % 64 / 8 % 4 = b ∧
      (a * 32 + b * 8 + c) % 64 % 8 = c := by
  and_intros <;> omega

theorem sum_q (q : Nat) : q / 32 * 32 + q / 8 % 4 * 8 + q % 8 = q := by omega

/-- Format DISP. -/
theorem codes_disp (lt : op < 65536 := by decide) (fits : Fits 0xD208#16 op := by exact rfl)
    (free : op / 8192 % 2 = 0 ∧ op / 1024 % 4 = 0 ∧ op / 16 % 32 = 0 ∧ op % 8 = 0 := by decide) :
    Codes (opcode 0xD208#16 op) (fun x : Reg × BitVec 6 => encDisp op x.1 x.2) (fun w => (fieldD w, fieldQ w))
      fun _ => true := by
  obtain ⟨op_8192, op_1024, op_16, op_1⟩ := free
  have sum_op := sum_disp op
  simp only [op_8192, op_1024, op_16, op_1, Nat.zero_mul, Nat.add_zero] at sum_op
  have toNat_enc (d : Reg) (q : BitVec 6) : (encDisp op d q).toNat =
      op + q.toNat / 32 * 8192 + q.toNat / 8 % 4 * 1024 + d.val * 16 + q.toNat % 8 := by
    rw [encDisp, BitVec.toNat_ofNat, Nat.mod_eq_of_lt (by omega)]
  have fields_enc (d : Reg) (q : BitVec 6) := by
    have two (x : Nat) : x % 2 < 2 := Nat.mod_lt x (by decide)
    refine fields_disp (w := (encDisp op d q).toNat) (t := op / 16384) (two (op / 4096)) (two (op / 512)) (two (op / 8))
      (a := q.toNat / 32) (b := q.toNat / 8 % 4) (c := q.toNat % 8) (by omega) (by omega) (by omega) d.isLt ?_
    rw [toNat_enc, sum_op]
  refine ⟨fun ⟨d, q⟩ _ => ?_, fun ⟨d, q⟩ _ => ?_, fun _ => rfl, fun w h => ?_⟩
  · rw [matches_D208 lt fits]
    exact (fields_enc d q).1
  · obtain ⟨-, h8192, h1024, h16, h1⟩ := fields_enc d q
    simp only [fieldD, fieldQ, field, Prod.mk.injEq, Fin.ext_iff, Fin.val_ofNat, ← BitVec.toNat_inj,
      BitVec.toNat_ofNat, Nat.reducePow, Nat.pow_zero, Nat.div_one, h8192, h1024, h16, h1, sum_q]
    exact ⟨Nat.mod_eq_of_lt d.isLt, Nat.mod_eq_of_lt q.isLt⟩
  · rw [matches_D208 lt fits] at h
    obtain ⟨h16384, h4096, h512, h8⟩ := h
    have q_fields := fields_q (a := w.toNat / 8192 % 2) (b := w.toNat / 1024 % 4) (c := w.toNat % 8)
      (Nat.mod_lt _ (by decide)) (Nat.mod_lt _ (by decide)) (Nat.mod_lt _ (by decide))
    have sum_w := sum_disp w.toNat
    rw [h16384, h4096, h512, h8] at sum_w
    simp [← BitVec.toNat_inj, toNat_enc, fieldD, fieldQ, field, q_fields]
    linarith

/-- Format SF. -/
theorem codes_sf (lt : op < 65536 := by decide) (fits : Fits 0xFF8F#16 op := by exact rfl)
    (free : op / 16 % 8 = 0 := by decide) :
    Codes (opcode 0xFF8F#16 op) (encSF op) fieldS fun _ => true := by
  have toNat_enc (b : BitVec 3) : (encSF op b).toNat = op + b.toNat * 16 := by
    rw [encSF, BitVec.toNat_ofNat, Nat.mod_eq_of_lt (by omega)]
  refine ⟨fun b _ => ?_, fun b _ => ?_, fun _ => rfl, fun w h => ?_⟩
  · rw [matches_FF8F lt fits, toNat_enc]
    omega
  · simp [toNat_enc, fieldS, field, ← BitVec.toNat_inj]
    omega
  · rw [matches_FF8F lt fits] at h
    simp [← BitVec.toNat_inj, toNat_enc, fieldS, field]
    omega

/-- The words written out. -/
theorem codes_fixed {v : Word} : Codes ⟨0xFFFF#16, v⟩ (fun _ : Unit => v) (fun _ => ()) fun _ => true := by
  have fixed (w : Word) : Pattern.Matches ⟨0xFFFF#16, v⟩ w = true ↔ w = v := by
    rw [Pattern.Matches, beq_iff_eq, show 0xFFFF#16 = BitVec.allOnes 16 from rfl, BitVec.and_allOnes]
  exact ⟨fun _ _ => (fixed v).mpr rfl, fun _ _ => rfl, fun _ => rfl, fun w h => ((fixed w).mp h).symm⟩

end

end Sys2Proof.Encoding
end

section
/-! PROOFS. Decoding an encoded instruction, and encoding a decoded one (R78 to R90). Each row of the opcode map is a format
with an opcode, so it has both directions; that the rows together build every instruction is a walk over the instructions. -/

namespace Sys2Proof.Encoding

open Sys2Proof.Machine

/-! ## Rows (R81) -/

/-- The words of a row's instructions: the instruction of a word of the row has that word for its encoding, and every
instruction of the row is that of the words it encodes to. A row of one word is decoded with 0 for a second (R90). -/
structure Coded (row : OpRow) : Prop where
  encodes : ∀ w0 w1, (rowPattern row).Matches w0 = true →
    (row.build w0 w1).wf = true ∧ (row.build w0 w1).canonical = row.build w0 w1 ∧
      encode (row.build w0 w1) = if (row.build w0 w1).words = 2 then [w0, w1] else [w0]
  decodes : ∀ w w1, ∃ v0 v1, (rowPattern row).Matches v0 = true ∧ row.build v0 v1 = row.build w w1 ∧
    encode (row.build w w1) = (if (row.build w w1).words = 2 then [v0, v1] else [v0]) ∧
      ((row.build w w1).words ≠ 2 → v1 = 0#16)

/-- The instruction `i` is of a defining row of one word, `w`, and is well-formed where `ok`. -/
structure HasWord (i : Instr) (w : Word) (ok : Bool) : Prop where
  wf : i.wf = ok
  canonical : i.canonical = i
  words : i.words = 1
  encode : encode i = [w]

section
variable {α β : Type} {p : Pattern}

/-- A row of one operand, or of none. -/
theorem coded (c : α → Instr) {enc : α → Word} {dec : Word → α} {ok : α → Bool} (codes : Codes p enc dec ok)
    (has : ∀ a, HasWord (c a) (enc a) (ok a) := by exact fun _ => ⟨rfl, rfl, rfl, rfl⟩) :
    Coded ⟨p.mask, p.pat, fun w _ => c (dec w)⟩ := by
  constructor
  · intro w0 w1 h
    obtain ⟨wf, canonical, words, encode⟩ := has (dec w0)
    exact ⟨by rw [wf, codes.ok_dec], canonical, by rw [encode, words, codes.enc_dec w0 h]; rfl⟩
  · intro w w1
    obtain ⟨-, -, words, encode⟩ := has (dec w)
    exact ⟨enc (dec w), 0#16, codes.matches_enc _ (codes.ok_dec w), by simp only [codes.dec_enc _ (codes.ok_dec w)],
      by rw [encode, words]; rfl, fun _ => rfl⟩

/-- A row of two operands. -/
theorem coded_pair (c : α → β → Instr) {enc : α × β → Word} {dec : Word → α × β} {ok : α × β → Bool}
    (codes : Codes p enc dec ok)
    (has : ∀ a, HasWord (c a.1 a.2) (enc a) (ok a) := by exact fun _ => ⟨rfl, rfl, rfl, rfl⟩) :
    Coded ⟨p.mask, p.pat, fun w _ => c (dec w).1 (dec w).2⟩ :=
  coded (fun a : α × β => c a.1 a.2) codes has

/-- `LDS` and `STS`: the second word is an operand of its own. -/
theorem coded_abs16 (c : Reg → Word → Instr) {enc : Reg → Word}
    (codes : Codes p enc fieldD fun _ => true)
    (has : ∀ d k, (c d k).wf = true ∧ (c d k).canonical = c d k ∧ (c d k).words = 2 ∧
      encode (c d k) = [enc d, k] := by exact fun _ _ => ⟨rfl, rfl, rfl, rfl⟩) :
    Coded ⟨p.mask, p.pat, fun w w1 => c (fieldD w) w1⟩ := by
  constructor
  · intro w0 w1 h
    obtain ⟨wf, canonical, words, encode⟩ := has (fieldD w0) w1
    exact ⟨wf, canonical, by rw [encode, words, codes.enc_dec w0 h]; rfl⟩
  · intro w w1
    obtain ⟨-, -, words, encode⟩ := has (fieldD w) w1
    exact ⟨enc (fieldD w), w1, codes.matches_enc _ rfl, by simp only [codes.dec_enc _ rfl],
      by rw [encode, words]; rfl, fun h => absurd words h⟩

theorem toNat_fieldAbs22 (w w1 : Word) :
    (fieldAbs22 w w1).toNat = w.toNat / 16 % 32 * 131072 + w.toNat % 2 * 65536 + w1.toNat := by
  simp only [fieldAbs22, field, BitVec.toNat_ofNat, Nat.reducePow, Nat.div_one]
  omega

/-- `JMP` and `CALL`: the second word is the low 16 bits of the operand. -/
theorem coded_abs22 (c : BitVec 22 → Instr) {op : Nat}
    (has : ∀ k, (c k).wf = true ∧ (c k).canonical = c k ∧ (c k).words = 2 ∧
      encode (c k) = [encAbs22 op k, BitVec.ofNat 16 k.toNat] := by exact fun _ => ⟨rfl, rfl, rfl, rfl⟩)
    (lt : op < 65536 := by decide) (fits : Fits 0xFE0E#16 op := by exact rfl)
    (free : op % 512 < 16 ∧ op % 2 = 0 := by decide) :
    Coded ⟨0xFE0E#16, BitVec.ofNat 16 op, fun w w1 => c (fieldAbs22 w w1)⟩ := by
  have toNat_enc (k : BitVec 22) : (encAbs22 op k).toNat = op + k.toNat / 131072 * 16 + k.toNat / 65536 % 2 := by
    rw [encAbs22, BitVec.toNat_ofNat, Nat.mod_eq_of_lt (by omega)]
  have matches_enc (k : BitVec 22) : (opcode 0xFE0E#16 op).Matches (encAbs22 op k) = true := by
    rw [matches_FE0E lt fits, toNat_enc]
    omega
  have dec_enc (k : BitVec 22) : fieldAbs22 (encAbs22 op k) (BitVec.ofNat 16 k.toNat) = k := by
    rw [← BitVec.toNat_inj, toNat_fieldAbs22, toNat_enc, BitVec.toNat_ofNat]
    omega
  have enc_dec (w w1 : Word) (h : (opcode 0xFE0E#16 op).Matches w = true) :
      encAbs22 op (fieldAbs22 w w1) = w ∧ BitVec.ofNat 16 (fieldAbs22 w w1).toNat = w1 := by
    rw [matches_FE0E lt fits] at h
    rw [← BitVec.toNat_inj, ← BitVec.toNat_inj, BitVec.toNat_ofNat, toNat_enc, toNat_fieldAbs22]
    omega
  constructor
  · intro w0 w1 h
    obtain ⟨wf, canonical, words, encode⟩ := has (fieldAbs22 w0 w1)
    obtain ⟨first, second⟩ := enc_dec w0 w1 h
    exact ⟨wf, canonical, by rw [encode, words, first, second]; rfl⟩
  · intro w w1
    obtain ⟨-, -, words, encode⟩ := has (fieldAbs22 w w1)
    exact ⟨_, _, matches_enc _, congrArg c (dec_enc _), by rw [encode, words]; rfl,
      fun h => absurd words h⟩

end

theorem rows_arith : ∀ row ∈ opArith, Coded row := by
  simp only [opArith, List.forall_mem_cons]
  exact ⟨coded_pair .add codes_rr, coded_pair .adc codes_rr, coded_pair .adiw codes_wi, coded_pair .sub codes_rr,
    coded_pair .subi codes_ri, coded_pair .sbc codes_rr, coded_pair .sbci codes_ri, coded_pair .sbiw codes_wi,
    coded_pair .and codes_rr, coded_pair .andi codes_ri, coded_pair .or codes_rr, coded_pair .ori codes_ri, coded_pair
    .eor codes_rr, coded .com codes_r1, coded .neg codes_r1, coded .inc codes_r1, coded .dec codes_r1, coded_pair .mul
    codes_rr, coded_pair .muls codes_muls, coded_pair .mulsu codes_r3r3, coded_pair .fmul codes_r3r3, coded_pair
    .fmuls codes_r3r3, coded_pair .fmulsu codes_r3r3, List.forall_mem_nil _⟩

theorem rows_branch : ∀ row ∈ opBranch, Coded row := by
  simp only [opBranch, List.forall_mem_cons]
  exact ⟨coded .rjmp codes_rel12, coded (fun _ => .ijmp) codes_fixed, coded (fun _ => .eijmp) codes_fixed, coded_abs22
    .jmp, coded .rcall codes_rel12, coded (fun _ => .icall) codes_fixed, coded (fun _ => .eicall) codes_fixed,
    coded_abs22 .call, coded (fun _ => .ret) codes_fixed, coded (fun _ => .reti) codes_fixed, coded_pair .cpse
    codes_rr, coded_pair .cp codes_rr, coded_pair .cpc codes_rr, coded_pair .cpi codes_ri, coded_pair .sbrc codes_rb,
    coded_pair .sbrs codes_rb, coded_pair .sbic codes_ab, coded_pair .sbis codes_ab, coded_pair .brbs codes_br,
    coded_pair .brbc codes_br, List.forall_mem_nil _⟩

theorem rows_control : ∀ row ∈ opControl, Coded row := by
  simp only [opControl, List.forall_mem_cons]
  exact ⟨coded (fun _ => .brk) codes_fixed, coded (fun _ => .nop) codes_fixed, coded (fun _ => .sleep) codes_fixed,
    coded (fun _ => .wdr) codes_fixed, List.forall_mem_nil _⟩

theorem rows_transfer : ∀ row ∈ opTransfer, Coded row := by
  simp only [opTransfer, List.forall_mem_cons]
  exact ⟨coded_pair .mov codes_rr, coded_pair .movw codes_movw, coded_pair .ldi codes_ri, coded_abs16 .lds codes_r1,
    coded .ldX codes_r1, coded .ldXInc codes_r1, coded .ldXDec codes_r1, coded .ldYInc codes_r1, coded .ldYDec
    codes_r1, coded_pair .lddY codes_disp, coded .ldZInc codes_r1, coded .ldZDec codes_r1, coded_pair .lddZ
    codes_disp, coded_abs16 (fun r k => .sts k r) codes_r1, coded .stX codes_r1, coded .stXInc codes_r1, coded .stXDec
    codes_r1, coded .stYInc codes_r1, coded .stYDec codes_r1, coded_pair (fun r a => .stdY a r) codes_disp, coded
    .stZInc codes_r1, coded .stZDec codes_r1, coded_pair (fun r a => .stdZ a r) codes_disp, coded (fun _ => .lpm)
    codes_fixed, coded .lpmZ codes_r1, coded .lpmZInc codes_r1, coded (fun _ => .elpm) codes_fixed, coded .elpmZ
    codes_r1, coded .elpmZInc codes_r1, coded (fun _ => .spm) codes_fixed, coded_pair .inp codes_io, coded_pair (fun r
    a => .out a r) codes_io, coded .push codes_r1, coded .pop codes_r1, List.forall_mem_nil _⟩

theorem rows_bits : ∀ row ∈ opBits, Coded row := by
  simp only [opBits, List.forall_mem_cons]
  exact ⟨coded .lsr codes_r1, coded .ror codes_r1, coded .asr codes_r1, coded .swap codes_r1, coded .bset codes_sf,
    coded .bclr codes_sf, coded_pair .sbi codes_ab, coded_pair .cbi codes_ab, coded_pair .bst codes_rb, coded_pair
    .bld codes_rb, List.forall_mem_nil _⟩

theorem coded_of_mem {row : OpRow} (h : row ∈ opTable) : Coded row := by
  simp only [opTable, List.mem_append] at h
  obtain (((arith | branch) | control) | transfer) | bits := h
  · exact rows_arith row arith
  · exact rows_branch row branch
  · exact rows_control row control
  · exact rows_transfer row transfer
  · exact rows_bits row bits

/-! ## The decoder (R90) -/

theorem nodup_rowPattern : (opTable.map rowPattern).Nodup := by
  refine ((List.pairwise_append.mp conflicts_patterns).1).imp fun {p q} conflict same => ?_
  rw [same, Pattern.conflicts, bne_self_eq_false] at conflict
  cases conflict

/-- A word has one row. -/
theorem decodeOp_of_mem {row : OpRow} (h : row ∈ opTable) {w0 : Word} (w1 : Word)
    (hw : (rowPattern row).Matches w0 = true) : decodeOp w0 w1 = .ok (row.build w0 w1) := by
  obtain ⟨found, hfound⟩ := Option.isSome_iff_exists.mp
    (List.find?_isSome.mpr ⟨row, h, hw⟩ : (opTable.find? fun row => w0 &&& row.mask == row.pat).isSome = true)
  have found_mem := List.mem_of_find?_eq_some hfound
  have same_pattern : rowPattern found = rowPattern row :=
    pattern_unique (List.mem_append_left _ (List.mem_map_of_mem found_mem))
      (List.mem_append_left _ (List.mem_map_of_mem h)) (List.find?_some hfound :) hw
  have same : found = row := List.inj_on_of_nodup_map nodup_rowPattern found_mem h same_pattern
  rw [decodeOp, hfound, same]

/-- Settles O56: each row has the words that its instructions encode to. -/
theorem encodeOfDecode : Obligations.EncodeOfDecode := by
  intro w0 w1 i h
  obtain ⟨row, mem, hmatch, rfl⟩ := decodeOp_ok h
  exact (coded_of_mem mem).encodes w0 w1 hmatch

/-! ## Every defining row is in the table -/

/-- A row of the table builds the instruction. -/
def Built (i : Instr) : Prop := ∃ row ∈ opTable, ∃ w0 w1, row.build w0 w1 = i

theorem built_of_mem {i : Instr} (w0 w1 : Word)
    (h : i ∈ opTable.map (·.build w0 w1) := by simp [opTable, opArith, opBranch, opControl, opTransfer, opBits]) :
    Built i := by
  obtain ⟨row, mem, rfl⟩ := List.mem_map.mp h
  exact ⟨row, mem, w0, w1, rfl⟩

theorem fields_rr (d r : Reg) : ∃ w, fieldD w = d ∧ fieldR w = r :=
  ⟨encRR 0 d r, Prod.mk.inj ((codes_rr (op := 0)).dec_enc (d, r) rfl)⟩

theorem fields_ri (d : Reg) (k : BitVec 8) (hd : upperHalf d = true) : ∃ w, fieldD16 w = d ∧ fieldK8 w = k :=
  ⟨encRI 0 d k, Prod.mk.inj ((codes_ri (op := 0)).dec_enc (d, k) hd)⟩

theorem fields_wi (d : Reg) (k : BitVec 6) (hd : wordPair d = true) : ∃ w, fieldPair w = d ∧ fieldK6 w = k :=
  ⟨encWI 0 d k, Prod.mk.inj ((codes_wi (op := 0)).dec_enc (d, k) hd)⟩

theorem fields_r1 (d : Reg) : ∃ w, fieldD w = d :=
  ⟨encR1 0 d, (codes_r1 (op := 0)).dec_enc d rfl⟩

theorem fields_movw (d r : Reg) (h : (evenReg d && evenReg r) = true) : ∃ w, fieldEvenD w = d ∧ fieldEvenR w = r :=
  ⟨encMovw 0 d r, Prod.mk.inj ((codes_movw (op := 0)).dec_enc (d, r) h)⟩

theorem fields_muls (d r : Reg) (h : (upperHalf d && upperHalf r) = true) : ∃ w, fieldD16 w = d ∧ fieldR16 w = r :=
  ⟨encMuls 0 d r, Prod.mk.inj ((codes_muls (op := 0)).dec_enc (d, r) h)⟩

theorem fields_r3r3 (d r : Reg) (h : (r16to23 d && r16to23 r) = true) : ∃ w, fieldD3 w = d ∧ fieldR3 w = r :=
  ⟨encR3R3 0 d r, Prod.mk.inj ((codes_r3r3 (op := 0)).dec_enc (d, r) h)⟩

theorem fields_rel12 (k : BitVec 12) : ∃ w, fieldRel12 w = k :=
  ⟨encRel12 0 k, (codes_rel12 (op := 0)).dec_enc k rfl⟩

theorem fields_br (b : BitVec 3) (k : BitVec 7) : ∃ w, fieldB w = b ∧ fieldRel7 w = k :=
  ⟨encBr 0 b k, Prod.mk.inj ((codes_br (op := 0)).dec_enc (b, k) rfl)⟩

theorem fields_rb (r : Reg) (b : BitVec 3) : ∃ w, fieldD w = r ∧ fieldB w = b :=
  ⟨encRB 0 r b, Prod.mk.inj ((codes_rb (op := 0)).dec_enc (r, b) rfl)⟩

theorem fields_ab (a : BitVec 5) (b : BitVec 3) : ∃ w, fieldA5 w = a ∧ fieldB w = b :=
  ⟨encAB 0 a b, Prod.mk.inj ((codes_ab (op := 0)).dec_enc (a, b) rfl)⟩

theorem fields_io (d : Reg) (a : BitVec 6) : ∃ w, fieldD w = d ∧ fieldA6 w = a :=
  ⟨encIO 0 d a, Prod.mk.inj ((codes_io (op := 0)).dec_enc (d, a) rfl)⟩

theorem fields_displaced (d : Reg) (q : BitVec 6) : ∃ w, fieldD w = d ∧ fieldQ w = q :=
  ⟨encDisp 0 d q, Prod.mk.inj ((codes_disp (op := 0)).dec_enc (d, q) rfl)⟩

theorem fields_abs22 (k : BitVec 22) : ∃ w w1, fieldAbs22 w w1 = k := by
  refine ⟨encAbs22 0 k, BitVec.ofNat 16 k.toNat, ?_⟩
  rw [← BitVec.toNat_inj, toNat_fieldAbs22, encAbs22, BitVec.toNat_ofNat, BitVec.toNat_ofNat]
  omega

theorem fields_sf (b : BitVec 3) : ∃ w, fieldS w = b :=
  ⟨encSF 0 b, (codes_sf (op := 0)).dec_enc b rfl⟩

/-- A well-formed instruction of a defining row is built by a row, of the words of its operands. -/
theorem built {i : Instr} (wf : i.wf = true) (canonical : i.canonical = i) : Built i := by
  cases i with
  | add d r | adc d r | sub d r | sbc d r | and d r | or d r | eor d r | mul d r | cpse d r | cp d r | cpc d r
  | mov d r =>
    obtain ⟨w0, rfl, rfl⟩ := fields_rr d r
    exact built_of_mem w0 0#16
  | adiw d k | sbiw d k =>
    obtain ⟨w0, rfl, rfl⟩ := fields_wi d k wf
    exact built_of_mem w0 0#16
  | subi d k | sbci d k | andi d k | ori d k | cpi d k | ldi d k =>
    obtain ⟨w0, rfl, rfl⟩ := fields_ri d k wf
    exact built_of_mem w0 0#16
  | com d | neg d | inc d | dec d | ldX d | ldXInc d | ldXDec d | ldYInc d | ldYDec d | ldZInc d | ldZDec d | stX d
  | stXInc d | stXDec d | stYInc d | stYDec d | stZInc d | stZDec d | lpmZ d | lpmZInc d | elpmZ d | elpmZInc d
  | push d | pop d | lsr d | ror d | asr d | swap d =>
    obtain ⟨w0, rfl⟩ := fields_r1 d
    exact built_of_mem w0 0#16
  | muls d r =>
    obtain ⟨w0, rfl, rfl⟩ := fields_muls d r wf
    exact built_of_mem w0 0#16
  | mulsu d r | fmul d r | fmuls d r | fmulsu d r =>
    obtain ⟨w0, rfl, rfl⟩ := fields_r3r3 d r wf
    exact built_of_mem w0 0#16
  | rjmp k | rcall k =>
    obtain ⟨w0, rfl⟩ := fields_rel12 k
    exact built_of_mem w0 0#16
  | ijmp | eijmp | icall | eicall | ret | reti | brk | nop | sleep | wdr | lpm | elpm | spm =>
    exact built_of_mem 0#16 0#16
  | jmp k | call k =>
    obtain ⟨w0, w1, rfl⟩ := fields_abs22 k
    exact built_of_mem w0 w1
  | sbrc r b | sbrs r b | bst r b | bld r b =>
    obtain ⟨w0, rfl, rfl⟩ := fields_rb r b
    exact built_of_mem w0 0#16
  | sbic a b | sbis a b | sbi a b | cbi a b =>
    obtain ⟨w0, rfl, rfl⟩ := fields_ab a b
    exact built_of_mem w0 0#16
  | brbs b k | brbc b k =>
    obtain ⟨w0, rfl, rfl⟩ := fields_br b k
    exact built_of_mem w0 0#16
  | movw d r =>
    obtain ⟨w0, rfl, rfl⟩ := fields_movw d r wf
    exact built_of_mem w0 0#16
  | lds d k =>
    obtain ⟨w0, rfl⟩ := fields_r1 d
    exact built_of_mem w0 k
  | lddY d q | lddZ d q =>
    obtain ⟨w0, rfl, rfl⟩ := fields_displaced d q
    exact built_of_mem w0 0#16
  | sts k d =>
    obtain ⟨w0, rfl⟩ := fields_r1 d
    exact built_of_mem w0 k
  | stdY q d | stdZ q d =>
    obtain ⟨w0, rfl, rfl⟩ := fields_displaced d q
    exact built_of_mem w0 0#16
  | inp d a =>
    obtain ⟨w0, rfl, rfl⟩ := fields_io d a
    exact built_of_mem w0 0#16
  | out a d =>
    obtain ⟨w0, rfl, rfl⟩ := fields_io d a
    exact built_of_mem w0 0#16
  | bset b | bclr b =>
    obtain ⟨w0, rfl⟩ := fields_sf b
    exact built_of_mem w0 0#16
  | sbr _ _ | cbr _ _ | tst _ | clr _ | ser _ | breq _ | brne _ | brcs _ | brcc _ | brsh _ | brlo _ | brmi _
  | brpl _ | brge _ | brlt _ | brhs _ | brhc _ | brts _ | brtc _ | brvs _ | brvc _ | brie _ | brid _ | ldY _ | ldZ _
  | stY _ | stZ _ | lsl _ | rol _ | sec | clc | sen | cln | sez | clz | sei | cli | ses | cls | sev | clv | set
  | clt | seh | clh =>
    cases canonical

end Sys2Proof.Encoding
end

section
/-! PROOFS. Decoding an encoded instruction (R83, R90). -/

namespace Sys2Proof.Encoding

open Sys2Proof.Machine

theorem encode_canonical (i : Instr) : encode i.canonical = encode i := by
  cases i <;> rfl

theorem canonical_canonical (i : Instr) : i.canonical.canonical = i.canonical := by
  cases i <;> rfl

theorem wf_canonical (i : Instr) : i.canonical.wf = i.wf := by
  cases i <;> rfl

/-- The length test is made on the first word, and says how many words the instruction has. -/
theorem isTwoWord_iff_words {w0 w1 : Word} {i : Instr} (h : decodeOp w0 w1 = .ok i) :
    isTwoWord w0 = true ↔ i.words = 2 := by
  obtain ⟨test_iff, of_decoded, -⟩ := lengthTest
  exact (test_iff w0).trans (of_decoded w0 w1 i h).1.symm

/-- Decoding the words of a row's instruction. -/
theorem decode_encode_of_built {i : Instr} (h : Built i) (rest : List Word) :
    decode (encode i ++ rest) = .ok (i, rest) := by
  obtain ⟨row, mem, w0, w1, rfl⟩ := h
  obtain ⟨v0, v1, hmatch, same, words_eq, one_word⟩ := (coded_of_mem mem).decodes w0 w1
  have decoded := decodeOp_of_mem mem v1 hmatch
  rw [same] at decoded
  have two_words := isTwoWord_iff_words decoded
  rw [words_eq]
  split
  next two =>
    simp only [List.cons_append, List.nil_append, decode, if_pos (two_words.mpr two), decoded]
    rfl
  next one =>
    simp only [List.cons_append, List.nil_append, decode, if_neg (mt two_words.mp one), ← one_word one, decoded]
    rfl

/-- Settles O55: the row that defines the instruction has the words it encodes to. -/
theorem decodeOfEncode : Obligations.DecodeOfEncode := by
  intro i rest wf
  rw [← encode_canonical]
  exact decode_encode_of_built (built (by rw [wf_canonical, wf]) (canonical_canonical i)) rest

end Sys2Proof.Encoding
end

section
/-! PROOFS. Sums, differences and comparisons (R101 to R104, R110, R111, R113 to R116, R161 to R163). What such an
instruction changes is said once, of its last writes; what its flags mean is said once, of the byte it computed. -/

namespace Sys2Proof.Arithmetic

open Sys2Proof.Machine

/-! ## What register and flag writes change -/

theorem onlyRegs_refl (s : State) (ds : List Reg) (fs : List Flag) : OnlyRegs s s ds fs :=
  ⟨fun _ _ => rfl, fun _ _ => rfl, fun _ => rfl, rfl⟩

section
variable {s u : State} {ds : List Reg} {fs : List Flag}

theorem onlyRegs_writeReg (h : OnlyRegs s u ds fs) {d : Reg} (v : Byte) (hd : d ∈ ds) :
    OnlyRegs s (writeReg d v u) ds fs := by
  obtain ⟨regs, flags, memory, rest⟩ := h
  refine ⟨fun e he => ?_, flags, memory, ?_⟩
  · have hne : e ≠ d := fun same => he (same ▸ hd)
    rw [readReg_writeReg, if_neg hne, regs e he]
  · rw [rest]
    rfl

theorem onlyRegs_writePair (h : OnlyRegs s u ds fs) {d : Reg} (v : Word) (hd : d ∈ ds) (hd1 : d + 1 ∈ ds) :
    OnlyRegs s (writePair d v u) ds fs :=
  onlyRegs_writeReg (onlyRegs_writeReg h _ hd) _ hd1

theorem onlyRegs_mapSreg (h : OnlyRegs s u ds fs) {update : Byte → Byte}
    (keeps : ∀ sr g, g ∉ fs → flagOf (update sr) g = flagOf sr g) : OnlyRegs s (mapSreg update u) ds fs := by
  obtain ⟨regs, flags, memory, rest⟩ := h
  refine ⟨regs, fun g hg => ?_, memory, ?_⟩
  · rw [readFlag_mapSreg, keeps _ g hg]
    exact flags g hg
  · rw [rest]
    rfl

/-- An instruction that ends with these changes and goes `n` words on. -/
theorem completes_of_onlyRegs {i : Instr} {n : Nat} {P : State → Prop} (ends : exec i s = nextAfter n u)
    (pc : u.pc = s.pc) (only : OnlyRegs s u ds fs) (holds : P (advance n u)) : Completes i s n ds fs P := by
  obtain ⟨regs, flags, memory, rest⟩ := only
  have cfg : u.cfg = s.cfg := by rw [rest]
  refine ⟨_, ends, by rw [advance, setPc, pc, cfg]; rfl, ⟨regs, flags, memory, ?_⟩, holds⟩
  rw [rest]
  rfl

end

/-! ## Sums -/

theorem carryByte_eq (s : State) : carryByte s = BitVec.ofNat 8 (bitNat (readFlag s .c)) := by
  rw [carryByte, bitNat]
  split <;> rfl

theorem byte_eq_iff (x y : Byte) : x = y ↔ x.toNat = y.toNat := BitVec.toNat_inj.symm

/-- The flags of `AddFlags` for the sum `r`. -/
theorem sumFlags_of_addFlags {a b r : Byte} {cin : Bool} {sr : Byte} {t : State}
    (hr : r.toNat = (a.toNat + b.toNat + bitNat cin) % 256)
    (flags : ∀ g, readFlag t g = flagOf (addFlags a b r sr) g) : SumFlags a b cin t := by
  have hc := bitNat_le_one cin
  refine ⟨?c, ?h, ?v, ?n, ?s, ?z⟩ <;> simp only [flags, flagOf_addFlags]
  case c => exact carry_from_bit_seven hr
  case h => exact carry_from_bit_three hr
  case v => exact overflow_of_sum hr
  case n => rw [bitAt_seven, hr]
  case s =>
    rw [overflow_of_sum hr]
    simp only [bitAt_seven, decide_xor, decide_eq_decide, toInt_byte, hr]
    omega
  case z =>
    simp only [beq_eq_decide, byte_eq_iff, hr]
    rfl

/-- `ADD` and `ADC`. -/
theorem completes_sum {i : Instr} {s : State} {d : Reg} {a b r : Byte} (cin : Bool)
    (ends : exec i s = nextAfter 1 (mapSreg (addFlags a b r) (writeReg d r s)))
    (hr : r.toNat = (a.toNat + b.toNat + bitNat cin) % 256) :
    Completes i s 1 [d] sixFlags fun t =>
      (readReg t d).toNat = (a.toNat + b.toNat + bitNat cin) % 256 ∧ SumFlags a b cin t := by
  refine completes_of_writeReg_mapSreg ends (fun g hg => ?_) ⟨?_, sumFlags_of_addFlags hr fun g => rfl⟩
  · cases g <;> simp [sixFlags] at hg ⊢
  · simpa using hr

/-- Settles O3. -/
theorem addResults : Obligations.AddResults := by
  intro s d r
  refine ⟨completes_sum false rfl ?_, completes_sum (readFlag s .c) rfl ?_⟩
  · simp [bitNat]
  · rw [carryByte_eq, toNat_add_bitNat]

/-! ## Differences -/

/-- The flags of `SubFlags` for the difference `r`. -/
theorem differenceFlags_of_subFlags {a b r : Byte} {cin : Bool} {sr : Byte} {t : State}
    (hr : r.toNat = difference a b cin) (flags : ∀ g, g ≠ .z → readFlag t g = flagOf (subFlags a b r sr) g) :
    DifferenceFlags a b cin t := by
  have hc := bitNat_le_one cin
  have diff := eq_or_borrow_of_difference a b cin
  refine ⟨?c, ?h, ?v, ?n, ?s⟩ <;> rw [flags _ (by decide), flagOf_subFlags] <;> dsimp only
  case c => exact borrow_into_bit_seven hr
  case h => exact borrow_into_bit_three hr
  case v => exact overflow_of_difference hr
  case n => rw [bitAt_seven, hr]
  case s =>
    rw [overflow_of_difference hr]
    simp only [bitAt_seven, decide_xor, decide_eq_decide, toInt_byte, hr]
    omega

theorem difference_eq_zero_iff (a b : Byte) : difference a b false = 0 ↔ a = b := by
  rw [byte_eq_iff, difference, bitNat]
  simp only [Bool.false_eq_true, if_false]
  omega

/-- `SubFlags` with plain Z (R103). -/
def plainDifference (a b r sr : Byte) : Byte := plainZ r (subFlags a b r sr)

/-- `SubFlags` with carried Z (R104). -/
def carriedDifference (a b r sr : Byte) : Byte := carriedZ r (subFlags a b r sr)

theorem plainDifference_keeps (a b r sr : Byte) (g : Flag) (hg : g ∉ sixFlags) :
    flagOf (plainDifference a b r sr) g = flagOf sr g := by
  cases g <;> simp [sixFlags, plainDifference] at hg ⊢

theorem carriedDifference_keeps (a b r sr : Byte) (g : Flag) (hg : g ∉ sixFlags) :
    flagOf (carriedDifference a b r sr) g = flagOf sr g := by
  cases g <;> simp [sixFlags, carriedDifference] at hg ⊢

theorem flags_of_plainDifference {a b r sr : Byte} {t : State} (hr : r.toNat = difference a b false)
    (sreg : t.sreg = plainDifference a b r sr) :
    DifferenceFlags a b false t ∧ readFlag t .z = decide (a = b) := by
  refine ⟨differenceFlags_of_subFlags (sr := sr) hr fun g hg => ?_, ?_⟩ <;> rw [readFlag, sreg, plainDifference]
  · cases g <;> simp at hg ⊢
  · simp [beq_eq_decide, byte_eq_iff r, hr, difference_eq_zero_iff]

theorem flags_of_carriedDifference {a b r : Byte} {cin : Bool} {s t : State} (hr : r.toNat = difference a b cin)
    (sreg : t.sreg = carriedDifference a b r s.sreg) :
    DifferenceFlags a b cin t ∧ readFlag t .z = (decide (difference a b cin = 0) && readFlag s .z) := by
  refine ⟨differenceFlags_of_subFlags (sr := s.sreg) hr fun g hg => ?_, ?_⟩ <;> rw [readFlag, sreg, carriedDifference]
  · cases g <;> simp at hg ⊢
  · simp [beq_eq_decide, byte_eq_iff r, hr, readFlag]

section
variable {i : Instr} {s : State} {d : Reg} {a b r : Byte} {cin : Bool}

theorem completes_plainDifference (hr : r.toNat = difference a b false)
    (ends : exec i s = nextAfter 1 (mapSreg (plainDifference a b r) (writeReg d r s))) :
    Completes i s 1 [d] sixFlags fun t => (readReg t d).toNat = difference a b false ∧
      DifferenceFlags a b false t ∧ readFlag t .z = decide (a = b) :=
  completes_of_writeReg_mapSreg ends (plainDifference_keeps a b r s.sreg)
    ⟨by simpa using hr, flags_of_plainDifference hr rfl⟩

theorem completes_carriedDifference (hr : r.toNat = difference a b cin)
    (ends : exec i s = nextAfter 1 (mapSreg (carriedDifference a b r) (writeReg d r s))) :
    Completes i s 1 [d] sixFlags fun t => (readReg t d).toNat = difference a b cin ∧
      DifferenceFlags a b cin t ∧ readFlag t .z = (decide (difference a b cin = 0) && readFlag s .z) :=
  completes_of_writeReg_mapSreg ends (carriedDifference_keeps a b r s.sreg)
    ⟨by simpa using hr, flags_of_carriedDifference hr rfl⟩

theorem completes_plainComparison (hr : r.toNat = difference a b false)
    (ends : exec i s = nextAfter 1 (mapSreg (plainDifference a b r) s)) :
    Completes i s 1 [] sixFlags fun t => DifferenceFlags a b false t ∧ readFlag t .z = decide (a = b) :=
  completes_of_onlyRegs ends rfl (onlyRegs_mapSreg (onlyRegs_refl s _ _) (plainDifference_keeps a b r))
    (flags_of_plainDifference hr rfl)

theorem completes_carriedComparison (hr : r.toNat = difference a b cin)
    (ends : exec i s = nextAfter 1 (mapSreg (carriedDifference a b r) s)) :
    Completes i s 1 [] sixFlags fun t =>
      DifferenceFlags a b cin t ∧ readFlag t .z = (decide (difference a b cin = 0) && readFlag s .z) :=
  completes_of_onlyRegs ends rfl (onlyRegs_mapSreg (onlyRegs_refl s _ _) (carriedDifference_keeps a b r))
    (flags_of_carriedDifference hr rfl)

end

theorem toNat_sub_eq_difference (a b : Byte) : (a - b).toNat = difference a b false := by
  simpa [bitNat] using toNat_sub_bitNat a b false

theorem toNat_sub_carryByte (a b : Byte) (s : State) :
    (a - b - carryByte s).toNat = difference a b (readFlag s .c) := by
  rw [carryByte_eq, toNat_sub_bitNat]

/-- Settles O4. -/
theorem subtractResults : Obligations.SubtractResults := fun s _ _ _ =>
  ⟨completes_plainDifference (toNat_sub_eq_difference _ _) rfl,
    completes_plainDifference (toNat_sub_eq_difference _ _) rfl,
    completes_carriedDifference (toNat_sub_carryByte _ _ s) rfl,
    completes_carriedDifference (toNat_sub_carryByte _ _ s) rfl⟩

/-- Settles O5. -/
theorem compareResults : Obligations.CompareResults := fun s _ _ _ =>
  ⟨completes_plainComparison (toNat_sub_eq_difference _ _) rfl,
    completes_plainComparison (toNat_sub_eq_difference _ _) rfl,
    completes_carriedComparison (toNat_sub_carryByte _ _ s) rfl⟩

/-! ## Two bytes at a time (R104) -/

theorem pcPlus_add {s t : State} {m : Nat} (wf : s.cfg.wf) (cfg : t.cfg = s.cfg) (pc : t.pc = pcPlus s m) (n : Nat) :
    pcPlus t n = pcPlus s (m + n) := by
  rw [pcPlus, cfg, pc, pcPlus, toNat_pc wf, Nat.mod_add_mod, Nat.add_assoc]
  rfl

/-- Two bytes as a signed number. -/
theorem toInt_append (h l : Byte) : (h ++ l : Word).toInt = h.toInt * 256 + l.toNat := by
  rw [BitVec.toInt_eq_toNat_cond, toNat_append, toInt_byte]
  split <;> split <;> omega

/-- Settles O6: the borrow of the low bytes is taken from the difference of the high ones. -/
theorem sixteenBitSubtract : Obligations.SixteenBitSubtract := by
  intro s dl dh rl rh wf dl_dh dl_rh
  obtain ⟨sub, -⟩ := subtractResults s dl rl 0#8
  obtain ⟨t, runs_sub, t_pc, ⟨t_regs, -, -, t_rest⟩, t_low, ⟨t_c, -⟩, t_z⟩ := sub
  obtain ⟨-, -, sbc, -⟩ := subtractResults t dh rh 0#8
  obtain ⟨u, runs_sbc, u_pc, ⟨u_regs, -, -, -⟩, u_high, ⟨u_c, -, -, -, u_s⟩, u_z⟩ := sbc
  have high : readReg t dh = readReg s dh := t_regs dh (by simpa using Ne.symm dl_dh)
  have low : readReg u dl = readReg t dl := u_regs dl (by simpa using dl_dh)
  have high' : readReg t rh = readReg s rh := t_regs rh (by simpa using Ne.symm dl_rh)
  rw [high, high', t_c] at u_high u_c u_s u_z
  rw [t_z] at u_z
  have borrow : bitNat (decide ((readReg s dl).toNat < (readReg s rl).toNat + bitNat false)) =
      if (readReg s dl).toNat < (readReg s rl).toNat then 1 else 0 := by simp [bitNat]
  have t_low := (low ▸ t_low : (readReg u dl).toNat = _)
  simp only [difference, borrow, byte_eq_iff, ← Bool.decide_and] at t_low u_high u_c u_s u_z
  simp only [bitNat, Bool.false_eq_true, if_false] at t_low
  refine ⟨t, u, runs_sub, runs_sbc, ?_, ?_, ?_, ?_, ?_⟩
  · rw [← BitVec.toNat_inj, BitVec.toNat_sub]
    simp only [toNat_append]
    clear u_c u_s u_z
    split at u_high <;> omega
  · rw [u_z, decide_eq_decide, ← BitVec.toNat_inj]
    simp only [toNat_append]
    split <;> omega
  · rw [u_c, decide_eq_decide]
    simp only [toNat_append]
    split <;> omega
  · rw [u_s, decide_eq_decide]
    simp only [toInt_append]
    split <;> omega
  · rw [u_pc, pcPlus_add wf (by rw [t_rest]) t_pc]

end Sys2Proof.Arithmetic
end

section
/-! PROOFS. Complements, increments, pairs, products, moves, shifts, bits and flags (R112, R117, R123, R124, R127, R128, R131
to R137, R210 to R212, R262 to R292). Each is one value and the flags of that value, so what is left is arithmetic. -/

namespace Sys2Proof.Arithmetic

open Sys2Proof.Machine

/-! ## Complement, increment, decrement -/

/-- An instruction that writes the value `v` and the flags `update`, in terms of the two. -/
theorem completes_of_value {i : Instr} {s : State} {d : Reg} {v : Byte} {update : Byte → Byte}
    {fs : List Flag} {P : State → Prop}
    (ends : exec i s = nextAfter 1 (mapSreg update (writeReg d v s)))
    (keeps : ∀ g, g ∉ fs → flagOf (update s.sreg) g = flagOf s.sreg g)
    (holds : ∀ t, readReg t d = v → (∀ g, readFlag t g = flagOf (update s.sreg) g) → P t) :
    Completes i s 1 [d] fs P :=
  completes_of_writeReg_mapSreg ends keeps (holds _ (by simp) fun _ => rfl)

theorem beq_zero_byte (x : Byte) : (x == 0#8) = decide (x.toNat = 0) := by
  rw [beq_eq_decide, decide_eq_decide, byte_eq_iff]
  rfl

theorem toNat_ff_sub (a : Byte) : (0xFF#8 - a).toNat = 255 - a.toNat := by
  rw [BitVec.toNat_sub, BitVec.toNat_ofNat]
  omega

theorem toNat_zero_sub (a : Byte) : (0#8 - a).toNat = (256 - a.toNat) % 256 := by
  rw [BitVec.toNat_sub, BitVec.toNat_ofNat]
  omega

theorem toNat_add_one (a : Byte) : (a + 1#8).toNat = (a.toNat + 1) % 256 := BitVec.toNat_add a 1#8

theorem toNat_sub_one (a : Byte) : (a - 1#8).toNat = (a.toNat + 255) % 256 := by
  rw [BitVec.toNat_sub, BitVec.toNat_ofNat]
  omega

/-- Settles O8. -/
theorem complementIncrementResults : Obligations.ComplementIncrementResults := by
  intro s d
  dsimp only
  refine ⟨completes_of_value rfl ?com_keeps fun t value flags => ?com_flags,
    completes_of_value rfl ?neg_keeps fun t value flags => ?neg_flags,
    completes_of_value rfl ?inc_keeps fun t value flags => ?inc_flags,
    completes_of_value rfl ?dec_keeps fun t value flags => ?dec_flags⟩
  case com_keeps | neg_keeps | inc_keeps | dec_keeps =>
    intro g hg
    cases g <;> simp [sixFlags] at hg ⊢
  case com_flags =>
    simp only [value, flags, flagOf_comFlags, bitAt_seven, beq_zero_byte, toNat_ff_sub, decide_eq_decide, true_and]
    and_intros <;> omega
  case inc_flags =>
    simp only [value, flags, flagOf_incFlags, bitAt_seven, beq_eq_decide, byte_eq_iff, toNat_add_one, decide_eq_decide,
      true_and, decide_xor, toInt_byte, BitVec.toNat_ofNat]
    and_intros <;> omega
  case dec_flags =>
    simp only [value, flags, flagOf_decFlags, bitAt_seven, beq_eq_decide, byte_eq_iff, toNat_sub_one, decide_eq_decide,
      true_and, decide_xor, toInt_byte, BitVec.toNat_ofNat]
    and_intros <;> omega
  case neg_flags =>
    simp only [value, flags, flagOf_negFlags, bitAt_seven, bitAt_three, beq_eq_decide, bne, byte_eq_iff, toNat_zero_sub,
      ← Bool.decide_or, ← decide_not, decide_eq_decide, true_and, decide_xor, toInt_byte, BitVec.toNat_ofNat, difference,
      DifferenceFlags, bitNat, Bool.false_eq_true, if_false]
    and_intros <;> omega

/-! ## Pairs (R112, R117) -/

/-- An instruction that writes the value `v` of a pair and the flags `update`, in terms of the two. -/
theorem completes_of_pairValue {i : Instr} {s : State} {d : Reg} {v : Word} {update : Byte → Byte}
    {fs : List Flag} {P : State → Prop}
    (ends : exec i s = nextAfter 1 (mapSreg update (writePair d v s)))
    (keeps : ∀ sr g, g ∉ fs → flagOf (update sr) g = flagOf sr g)
    (holds : ∀ t, readPair t d = v → (∀ g, readFlag t g = flagOf (update s.sreg) g) → P t) :
    Completes i s 1 [d, d + 1] fs P :=
  completes_of_onlyRegs ends rfl
    (onlyRegs_mapSreg (onlyRegs_writePair (onlyRegs_refl s _ _) v (by simp) (by simp)) keeps)
    (holds _ (by simp) fun _ => rfl)

theorem beq_zero_word (x : Word) : (x == 0#16) = decide (x.toNat = 0) := by
  rw [beq_eq_decide, decide_eq_decide, ← BitVec.toNat_inj]
  rfl

/-- A word read as a signed number. -/
theorem toInt_word (x : Word) : x.toInt = if x.toNat < 32768 then (x.toNat : Int) else x.toNat - 65536 := by
  rw [BitVec.toInt_eq_toNat_cond]
  split <;> split <;> omega

/-- Settles O9. -/
theorem wordImmediateResults : Obligations.WordImmediateResults := by
  intro s d k has
  dsimp only
  have toNat_imm : (k.setWidth 16).toNat = k.toNat := by
    rw [BitVec.toNat_setWidth]
    omega
  have sum : (readPair s d + k.setWidth 16).toNat = ((readPair s d).toNat + k.toNat) % 65536 := by
    rw [BitVec.toNat_add, toNat_imm]
  have diff : (readPair s d - k.setWidth 16).toNat = ((readPair s d).toNat + 65536 - k.toNat) % 65536 := by
    rw [BitVec.toNat_sub, toNat_imm]
    omega
  refine ⟨completes_of_pairValue (if_pos has) ?adiw_keeps fun t value flags => ?adiw_flags,
    completes_of_pairValue (if_pos has) ?sbiw_keeps fun t value flags => ?sbiw_flags⟩
  case adiw_keeps | sbiw_keeps =>
    intro sr g hg
    cases g <;> simp at hg ⊢
  case adiw_flags =>
    simp only [value, flags, flagOf_adiwFlags, word_top, beq_zero_word, sum, ← decide_not, ← Bool.decide_and,
      decide_eq_decide, true_and, and_true, decide_xor, toInt_word]
    and_intros
    · omega
    · split <;> omega
    · omega
  case sbiw_flags =>
    simp only [value, flags, flagOf_sbiwFlags, word_top, beq_zero_word, diff, ← decide_not, ← Bool.decide_and,
      decide_eq_decide, true_and, decide_xor, toInt_word]
    and_intros <;> omega

/-! ## Products (R132 to R137) -/

/-- An instruction that writes `v` to `R1:R0`, with the flags of the product `p`. -/
theorem completes_of_product {i : Instr} {s : State} {p v : Word} {P : State → Prop}
    (ends : exec i s = nextAfter 1 (writeProduct p v s))
    (holds : ∀ t, readPair t 0 = v → readFlag t .c = p.getLsbD 15 → readFlag t .z = (v == 0#16) → P t) :
    Completes i s 1 [0, 1] [.z, .c] P := by
  refine completes_of_pairValue ends (fun sr g hg => ?_) fun t value flags => holds t value ?_ ?_
  · cases g <;> simp at hg ⊢
  · rw [flags, flagOf_mulFlags]
  · rw [flags, flagOf_mulFlags]

theorem toNat_productUU (a b : Byte) : (productUU a b).toNat = a.toNat * b.toNat := by
  have bound : a.toNat * b.toNat ≤ 255 * 255 := Nat.mul_le_mul (by omega) (by omega)
  rw [productUU, BitVec.toNat_mul, BitVec.toNat_setWidth, BitVec.toNat_setWidth]
  rw [Nat.mod_eq_of_lt (a := a.toNat) (by omega), Nat.mod_eq_of_lt (a := b.toNat) (by omega)]
  exact Nat.mod_eq_of_lt (by omega)

/-- The product of a signed byte and a number that fits with it. -/
theorem product_bounds {x y : Int} (hx : -128 ≤ x ∧ x ≤ 127) (hy : -128 ≤ y ∧ y ≤ 255) :
    -32640 ≤ x * y ∧ x * y ≤ 32385 := by
  constructor <;> nlinarith

theorem toInt_byte_bounds (x : Byte) : -128 ≤ x.toInt ∧ x.toInt ≤ 127 := by
  rw [toInt_byte]
  split <;> omega

theorem toInt_mul_of_bounds {x y : Word} (h : -32640 ≤ x.toInt * y.toInt ∧ x.toInt * y.toInt ≤ 32385) :
    (x * y).toInt = x.toInt * y.toInt := by
  rw [BitVec.toInt_mul]
  exact Int.bmod_eq_of_le (by omega) (by omega)

theorem toInt_setWidth_byte (b : Byte) : (b.setWidth 16).toInt = b.toNat := by
  rw [toInt_word, BitVec.toNat_setWidth]
  omega

/-- The signed operands' product, and that it is within a word. -/
theorem toInt_productSS (a b : Byte) : (productSS a b).toInt = a.toInt * b.toInt := by
  have extended (x : Byte) : (x.signExtend 16).toInt = x.toInt := BitVec.toInt_signExtend_of_le (by decide)
  have bounds := product_bounds (toInt_byte_bounds a) (y := b.toInt) (by have := toInt_byte_bounds b; omega)
  rw [productSS, toInt_mul_of_bounds] <;> rw [extended, extended]
  exact bounds

theorem toInt_productSU (a b : Byte) : (productSU a b).toInt = a.toInt * (b.toNat : Int) := by
  have extended : (a.signExtend 16).toInt = a.toInt := BitVec.toInt_signExtend_of_le (by decide)
  have bounds := product_bounds (toInt_byte_bounds a) (y := b.toNat) (by omega)
  rw [productSU, toInt_mul_of_bounds] <;> rw [extended, toInt_setWidth_byte]
  exact bounds

theorem word_top_signed (x : Word) : x.getLsbD 15 = decide (x.toInt < 0) := by
  rw [word_top, decide_eq_decide, toInt_word]
  omega

theorem beq_zero_word_signed (x : Word) : (x == 0#16) = decide (x.toInt = 0) := by
  rw [beq_zero_word, decide_eq_decide, toInt_word]
  omega

/-- Settles O10. -/
theorem multiplyResults : Obligations.MultiplyResults := by
  intro s d r has
  refine ⟨completes_of_product (if_pos has) fun t value c z => ?_,
    completes_of_product (if_pos has) fun t value c z => ?_, completes_of_product (if_pos has) fun t value c z => ?_⟩
  · rw [value, c, z, word_top, beq_zero_word, toNat_productUU]
    exact ⟨rfl, rfl, rfl⟩
  · rw [value, c, z, word_top_signed, beq_zero_word_signed, toInt_productSS]
    exact ⟨rfl, rfl, rfl⟩
  · rw [value, c, z, word_top_signed, beq_zero_word_signed, toInt_productSU]
    exact ⟨rfl, rfl, rfl⟩

/-! ## Fractional products (R135 to R137) -/

theorem toNat_shiftLeft_one (x : Word) : (x <<< 1).toNat = 2 * x.toNat % 65536 := by
  rw [BitVec.toNat_shiftLeft, Nat.shiftLeft_eq, Nat.mul_comm]

/-- Two bytes' product is not 2^15: they would be powers of two with exponents below eight. -/
theorem mul_ne_two_pow {a b : Nat} (ha : a < 256) (hb : b < 256) : a * b ≠ 32768 := by
  intro h
  obtain ⟨i, -, rfl⟩ := (Nat.dvd_prime_pow Nat.prime_two (m := 15)).mp ⟨b, h.symm⟩
  obtain ⟨j, -, rfl⟩ := (Nat.dvd_prime_pow Nat.prime_two (m := 15)).mp ⟨2 ^ i, (Nat.mul_comm _ _ ▸ h).symm⟩
  have hi : i < 8 := (Nat.pow_lt_pow_iff_right (by decide : 1 < 2)).mp ha
  have hj : j < 8 := (Nat.pow_lt_pow_iff_right (by decide : 1 < 2)).mp hb
  have sum : i + j = 15 := Nat.pow_right_injective (le_refl 2) (by simpa [Nat.pow_add] using h)
  omega

theorem shiftLeft_one_signed (x : Word) : ((x <<< 1).toNat : Int) = 2 * x.toInt % 65536 := by
  rw [toNat_shiftLeft_one, toInt_word]
  omega

theorem beq_zero_shiftLeft_of_bounds {x : Word} (h : -32640 ≤ x.toInt ∧ x.toInt ≤ 32385) :
    (x <<< 1 == 0#16) = decide (x.toInt = 0) := by
  have shifted := shiftLeft_one_signed x
  rw [beq_zero_word, decide_eq_decide]
  omega

theorem beq_zero_shiftLeft_productUU (a b : Byte) :
    (productUU a b <<< 1 == 0#16) = decide (a = 0#8 ∨ b = 0#8) := by
  have bound : a.toNat * b.toNat ≤ 255 * 255 := Nat.mul_le_mul (by omega) (by omega)
  have ne := mul_ne_two_pow a.isLt b.isLt
  have zero : a.toNat * b.toNat = 0 ↔ a = 0#8 ∨ b = 0#8 := by simp [byte_eq_iff]
  rw [beq_zero_word, decide_eq_decide, toNat_shiftLeft_one, toNat_productUU, ← zero]
  omega

theorem toInt_eq_zero_iff (a : Byte) : a.toInt = 0 ↔ a = 0#8 := by
  rw [byte_eq_iff, toInt_byte]
  simp only [BitVec.toNat_ofNat]
  omega

theorem toNat_cast_eq_zero_iff (a : Byte) : (a.toNat : Int) = 0 ↔ a = 0#8 := by
  rw [byte_eq_iff]
  simp

/-- Settles O11: shifting drops the top bit of the product, which is never the only one set. -/
theorem fractionalMultiplyResults : Obligations.FractionalMultiplyResults := by
  intro s d r has
  refine ⟨completes_of_product (if_pos has) fun t value c z => ?_,
    completes_of_product (if_pos has) fun t value c z => ?_, completes_of_product (if_pos has) fun t value c z => ?_⟩
  · rw [value, c, z, word_top, beq_zero_shiftLeft_productUU, toNat_shiftLeft_one, toNat_productUU]
    exact ⟨rfl, rfl, rfl⟩
  · have bounds := product_bounds (toInt_byte_bounds (readReg s d)) (y := (readReg s r).toInt)
      (by have := toInt_byte_bounds (readReg s r); omega)
    rw [value, c, z, word_top_signed, beq_zero_shiftLeft_of_bounds (by rwa [toInt_productSS]), shiftLeft_one_signed,
      toInt_productSS]
    exact ⟨rfl, rfl, decide_eq_decide.mpr (Int.mul_eq_zero.trans
      (or_congr (toInt_eq_zero_iff _) (toInt_eq_zero_iff _)))⟩
  · have bounds := product_bounds (toInt_byte_bounds (readReg s d)) (y := (readReg s r).toNat) (by omega)
    rw [value, c, z, word_top_signed, beq_zero_shiftLeft_of_bounds (by rwa [toInt_productSU]), shiftLeft_one_signed,
      toInt_productSU]
    exact ⟨rfl, rfl, decide_eq_decide.mpr (Int.mul_eq_zero.trans
      (or_congr (toInt_eq_zero_iff _) (toNat_cast_eq_zero_iff _)))⟩

end Sys2Proof.Arithmetic
end

section
/-! PROOFS. Moves, shifts, bits and flags (R131, R210 to R212, R262 to R292). -/

namespace Sys2Proof.Arithmetic

open Sys2Proof.Machine

/-! ## Moves -/

/-- An instruction that writes one register and no flag. -/
theorem completes_of_writeReg {i : Instr} {s : State} {d : Reg} {v : Byte} {P : State → Prop}
    (ends : exec i s = nextAfter 1 (writeReg d v s)) (holds : ∀ t, readReg t d = v → P t) :
    Completes i s 1 [d] [] P :=
  completes_of_onlyRegs ends rfl (onlyRegs_writeReg (onlyRegs_refl s _ _) v (by simp)) (holds _ (by simp))

/-- Settles O12. -/
theorem moveResults : Obligations.MoveResults := by
  intro s d r k
  refine ⟨completes_of_writeReg rfl fun t value => value, completes_of_writeReg rfl fun t value => value,
    completes_of_writeReg rfl fun t value => by rw [value]; rfl, fun has => ?_⟩
  refine completes_of_onlyRegs (if_pos has) rfl (onlyRegs_writePair (onlyRegs_refl s _ _) _ (by simp) (by simp)) ?_
  simp [readPair]

/-! ## Shifts -/

theorem bitAt_zero (x : Byte) : bitAt x 0 = decide (x.toNat % 2 = 1) := by
  rw [bitAt, BitVec.getLsbD, Nat.testBit_zero]

/-- The flags of a shift of `d` that shifts `out` out (R260, R261). -/
def ShiftFlags (d : Reg) (t : State) (out : Bool) : Prop :=
  readFlag t .c = out ∧ readFlag t .n = decide (128 ≤ (readReg t d).toNat) ∧
  readFlag t .z = decide ((readReg t d).toNat = 0) ∧
  readFlag t .v = (readFlag t .n ^^ out) ∧ readFlag t .s = out

section
variable {i : Instr} {s : State} {d : Reg} {a r : Byte}

/-- `LSL` and `ROL`. -/
theorem completes_shiftLeft (ends : exec i s = nextAfter 1 (mapSreg (shiftLeftFlags a r) (writeReg d r s)))
    {n : Nat} (value : r.toNat = n) :
    Completes i s 1 [d] sixFlags fun t =>
      (readReg t d).toNat = n ∧ ShiftFlags d t (decide (128 ≤ a.toNat)) ∧
        readFlag t .h = decide (8 ≤ a.toNat % 16) := by
  refine completes_of_value ends (fun g hg => ?_) fun t written flags => ?_
  · cases g <;> simp [sixFlags] at hg ⊢
  · simp only [ShiftFlags, written, flags, flagOf_shiftLeftFlags, bitAt_seven, bitAt_three, beq_zero_byte,
      Bool.bne_self_left, value, and_self]

/-- `LSR`, `ROR` and `ASR`. -/
theorem completes_shiftRight (ends : exec i s = nextAfter 1 (mapSreg (shiftRightFlags a r) (writeReg d r s)))
    {P : Byte → Prop} (value : P r) :
    Completes i s 1 [d] [.z, .c, .n, .v, .s] fun t =>
      P (readReg t d) ∧ ShiftFlags d t (decide (a.toNat % 2 = 1)) := by
  refine completes_of_value ends (fun g hg => ?_) fun t written flags => ?_
  · cases g <;> simp at hg ⊢
  · simp only [ShiftFlags, written, flags, flagOf_shiftRightFlags, bitAt_seven, bitAt_zero, beq_zero_byte,
      Bool.bne_self_left, and_self, and_true]
    exact value

end

theorem toNat_shiftLeft_one_byte (a : Byte) : (a <<< 1).toNat = 2 * a.toNat % 256 := by
  rw [BitVec.toNat_shiftLeft, Nat.shiftLeft_eq, Nat.mul_comm]

theorem toNat_carryByte (s : State) : (carryByte s).toNat = bitNat (readFlag s .c) := by
  rw [carryByte, bitNat]
  split <;> rfl

/-- The bits of `x` above `y`, for a `y` below `2^n`. -/
theorem toNat_or_of_multiple {x y : Byte} (n : Nat) {m : Nat} (hx : x.toNat = m * 2 ^ n) (hy : y.toNat < 2 ^ n) :
    (x ||| y).toNat = x.toNat + y.toNat := by
  rw [BitVec.toNat_or, hx, ← Nat.shiftLeft_eq, Nat.shiftLeft_add_eq_or_of_lt hy]

theorem toNat_rotateLeft (a : Byte) (s : State) :
    ((a <<< 1) ||| carryByte s).toNat = (2 * a.toNat + bitNat (readFlag s .c)) % 256 := by
  have hc := bitNat_le_one (readFlag s .c)
  rw [toNat_or_of_multiple 1 (m := a.toNat % 128) (by rw [toNat_shiftLeft_one_byte]; omega)
    (by rw [toNat_carryByte]; omega), toNat_shiftLeft_one_byte, toNat_carryByte]
  omega

theorem toNat_shiftRight_one (a : Byte) : (a >>> 1).toNat = a.toNat / 2 := by
  rw [BitVec.toNat_ushiftRight, Nat.shiftRight_eq_div_pow]

theorem toNat_rotateRight (a : Byte) (s : State) :
    ((a >>> 1) ||| (carryByte s <<< 7)).toNat = a.toNat / 2 + 128 * bitNat (readFlag s .c) := by
  have hc := bitNat_le_one (readFlag s .c)
  have top : (carryByte s <<< 7).toNat = bitNat (readFlag s .c) * 2 ^ 7 := by
    rw [BitVec.toNat_shiftLeft, Nat.shiftLeft_eq, toNat_carryByte]
    omega
  rw [BitVec.or_comm, toNat_or_of_multiple 7 top (by rw [toNat_shiftRight_one]; omega), top, toNat_shiftRight_one]
  omega

/-- The sign bit is shifted in. -/
theorem shiftRight_arithmetic (a : Byte) : (a >>> 1) ||| (a &&& 0x80#8) = a.sshiftRight 1 := by
  refine BitVec.eq_of_getLsbD_eq fun j hj => ?_
  interval_cases j <;> simp [BitVec.getElem_sshiftRight, BitVec.msb_eq_getLsbD_last]

/-- Settles O13. -/
theorem shiftResults : Obligations.ShiftResults := by
  intro s d
  refine ⟨completes_shiftLeft rfl (toNat_shiftLeft_one_byte _), completes_shiftLeft rfl (toNat_rotateLeft _ s),
    completes_shiftRight rfl (P := fun r => r.toNat = _) (toNat_shiftRight_one _),
    completes_shiftRight rfl (P := fun r => r.toNat = _) (toNat_rotateRight _ s),
    completes_shiftRight rfl (P := fun r => r.toInt = _) ?_⟩
  rw [shiftRight_arithmetic, BitVec.toInt_sshiftRight, Int.shiftRight_eq_div_pow]
  rfl

/-! ## Nibbles and bits -/

theorem toNat_swap (a : Byte) : ((a &&& 0x0F#8) <<< 4 ||| a >>> 4).toNat = a.toNat % 16 * 16 + a.toNat / 16 := by
  have low : ((a &&& 0x0F#8) <<< 4).toNat = a.toNat % 16 * 2 ^ 4 := by
    rw [BitVec.toNat_shiftLeft, Nat.shiftLeft_eq, BitVec.toNat_and]
    have := Nat.and_two_pow_sub_one_eq_mod a.toNat 4
    simp at this ⊢
    omega
  have high : (a >>> 4).toNat = a.toNat / 16 := by rw [BitVec.toNat_ushiftRight, Nat.shiftRight_eq_div_pow]
  rw [toNat_or_of_multiple 4 low (by rw [high]; omega), low, high, show 2 ^ 4 = 16 from rfl]

/-- An instruction that writes one flag. -/
theorem completes_putFlag {i : Instr} {s : State} {f : Flag} {v : Bool}
    (ends : exec i s = nextAfter 1 (mapSreg (fun sr => putFlag sr f v) s)) :
    Completes i s 1 [] [f] fun t => readFlag t f = v := by
  refine completes_of_onlyRegs ends rfl (onlyRegs_mapSreg (onlyRegs_refl s _ _) fun sr g hg => ?_) ?_
  · have hne : g ≠ f := by simpa using hg
    rw [flagOf_putFlag, if_neg hne]
  · simp

/-- Settles O14. -/
theorem bitResults : Obligations.BitResults := by
  intro s d r b
  refine ⟨completes_of_writeReg rfl fun t value => ?_, completes_putFlag rfl,
    completes_of_writeReg rfl fun t value j hj => ?_⟩
  · rw [value, toNat_swap]
  · rw [value, bitAt_putBit _ _ _ _ b.isLt]

/-! ## Flag instructions -/

/-- The word that sets I. -/
theorem enablesInterrupts {i : Instr} {s : State} (ends : exec i s = nextAfter 1 (enableInterrupts s)) :
    ∃ t, exec i s = .next t ∧ readFlag t .i = true ∧ (∀ f, f ≠ .i → readFlag t f = readFlag s f) ∧
      t.irqInhibit = (s.irqInhibit || !readFlag s .i) ∧ t.pc = pcPlus s 1 ∧
      t = { s with pc := t.pc, sreg := t.sreg, irqInhibit := t.irqInhibit } := by
  refine ⟨_, ends, ?_, fun f hf => ?_, rfl, rfl, rfl⟩
  · simp [enableInterrupts]
  · simp [enableInterrupts, hf, readFlag]

/-- Settles O15. -/
theorem flagInstructionResults : Obligations.FlagInstructionResults := by
  intro s
  refine ⟨fun f hf => completes_putFlag ?_, fun f => completes_putFlag ?_, fun x hx hne => ?_, fun i hi => ?_⟩
  · cases f <;> simp at hf <;> rfl
  · cases f <;> rfl
  · refine completes_putFlag ?_
    simp only [namedFlags, List.mem_cons, List.not_mem_nil, or_false] at hx
    rcases hx with rfl | rfl | rfl | rfl | rfl | rfl | rfl | rfl | rfl | rfl | rfl | rfl | rfl | rfl | rfl | rfl
    all_goals simp at hne <;> rfl
  · refine enablesInterrupts ?_
    simp only [List.mem_cons, List.not_mem_nil, or_false] at hi
    rcases hi with rfl | rfl <;> rfl

end Sys2Proof.Arithmetic
end

section
/-! PROOFS. A return address on an SRAM stack (R64, R65). One push and one pop are said first, with what they leave of the
room and of the bytes on the stack; `PushPC` and `PopPC` are two or three of them. -/

namespace Sys2Proof.Stack

open Sys2Proof.Machine

section
variable {s t u : State} {n : Nat}

/-! ## One byte -/

/-- `s` after a push onto SRAM. -/
def pushed (v : Byte) (s : State) : State :=
  { s with sp := readSp s - 1#16, sram := Memory.write s.sram (readSp s).toNat v }

/-- `s` after a pop from SRAM. -/
def popped (s : State) : State := { s with sp := readSp s + 1#16 }

theorem below_zero (s : State) : below s 0 = readSp s := by
  simp [below]

theorem below_one_masked (room : StackRoom s (n + 1)) : (readSp s - 1#16) &&& s.cfg.spMask = readSp s - 1#16 :=
  (room 0 (by omega)).2

theorem push_of_room (room : StackRoom s (n + 1)) (v : Byte) : push v s = .ok (pushed v s) := by
  have region : regionOf s.cfg (readSp s) = .sram := below_zero s ▸ (room 0 (by omega)).1
  rw [Machine.push_sram region, writeSp, below_one_masked room]
  rfl

theorem below_pushed (room : StackRoom s (n + 1)) (v : Byte) (k : Nat) : below (pushed v s) k = below s (k + 1) := by
  have sp : readSp (pushed v s) = readSp s - 1#16 := below_one_masked room
  rw [below, sp, below, BitVec.sub_sub, Nat.add_comm, BitVec.ofNat_add]

theorem room_pushed (room : StackRoom s (n + 1)) (v : Byte) : StackRoom (pushed v s) n := by
  intro k hk
  rw [below_pushed room, below_pushed room]
  exact room (k + 1) (by omega)

theorem above_one_masked (holds : StackHolds s (n + 1)) : (readSp s + 1#16) &&& s.cfg.spMask = readSp s + 1#16 :=
  (holds 1 (by omega) (by omega)).2

theorem pop_of_holds (holds : StackHolds s (n + 1)) : pop s = .ok (sramAt s (above s 1), popped s) := by
  have sp : writeSp (readSp s + 1#16) s = popped s := by rw [writeSp, above_one_masked holds, popped]
  have read_sp : readSp (popped s) = above s 1 := above_one_masked holds
  have region : regionOf (popped s).cfg (above s 1) = .sram := (holds 1 (by omega) (by omega)).1
  rw [pop, sp, read_sp, memRead]
  simp only [region]
  rfl

theorem above_popped (holds : StackHolds s (n + 1)) (k : Nat) : above (popped s) k = above s (k + 1) := by
  have sp : readSp (popped s) = readSp s + 1#16 := above_one_masked holds
  rw [above, sp, above, BitVec.add_assoc, Nat.add_comm, BitVec.ofNat_add]

theorem holds_popped (holds : StackHolds s (n + 1)) : StackHolds (popped s) n := by
  intro k hk hn
  rw [above_popped holds]
  exact holds (k + 1) (by omega) (by omega)

/-! ## Several bytes -/

theorem toNat_below (s : State) {k : Nat} (hk : k < 65536) :
    (below s k).toNat = ((readSp s).toNat + 65536 - k) % 65536 := by
  rw [below, BitVec.toNat_sub, BitVec.toNat_ofNat]
  omega

theorem toNat_below_inj (s : State) {j k : Nat} (hj : j < 65536) (hk : k < 65536) :
    (below s j).toNat = (below s k).toNat ↔ j = k := by
  rw [toNat_below s hj, toNat_below s hk]
  omega

theorem sramByte_pushed (v : Byte) (s : State) (a : Nat) :
    sramByte (pushed v s).sram a = if (below s 0).toNat = a then v else sramByte s.sram a := by
  rw [below_zero]
  exact sramByte_write _ _ _ _

/-- `u` is `s` after pushes of `bs`, the first of them at the highest address. -/
structure PushedBytes (s u : State) (bs : List Byte) : Prop where
  sp : readSp u = below s bs.length
  stored : ∀ j (h : j < bs.length), sramAt u (below s j) = bs[j]
  memory : ∀ a, (∀ k, k < bs.length → a ≠ (below s k).toNat) → sramByte u.sram a = sramByte s.sram a
  rest : u = { s with sp := u.sp, sram := u.sram }

theorem pushedBytes_foldl {bs : List Byte} (small : bs.length < 65536) (room : StackRoom s bs.length) :
    PushedBytes s (bs.foldl (fun u v => pushed v u) s) bs := by
  induction bs generalizing s with
  | nil => exact ⟨(below_zero s).symm, fun j h => absurd h (Nat.not_lt_zero j), fun _ _ => rfl, rfl⟩
  | cons v bs ih =>
    rw [List.length_cons] at small room
    obtain ⟨sp, stored, memory, rest⟩ := ih (by omega) (room_pushed room v)
    simp only [below_pushed room] at sp stored memory
    refine ⟨sp, fun j h => ?_, fun a ha => ?_, by rw [List.foldl_cons, rest]; rfl⟩
    · cases j with
      | zero =>
        rw [List.foldl_cons, sramAt, memory, sramByte_pushed, if_pos rfl, List.getElem_cons_zero]
        intro k hk same
        have := (toNat_below_inj s (by omega) (by omega)).mp same
        omega
      | succ j => exact stored j (by simpa using h)
    · rw [List.foldl_cons, memory a fun k hk => ha (k + 1) (by simpa using hk), sramByte_pushed,
        if_neg (ha 0 (by simp)).symm]

/-! ## A return address -/

/-- `ret` lies on the stack of `t`, pushed from where `SP` of `s` points. -/
structure OnStack (s t : State) (ret : Nat) : Prop where
  cfg : t.cfg = s.cfg
  sp : readSp t = below s s.cfg.pcBytes
  low : sramAt t (below s 0) = BitVec.ofNat 8 ret
  mid : sramAt t (below s 1) = BitVec.ofNat 8 (ret / 2 ^ 8)
  high : s.cfg.pcBytes = 3 → sramAt t (below s 2) = BitVec.ofNat 8 (ret / 2 ^ 16)

/-- `u` is `s` after `PushPC` of `ret` onto SRAM. -/
structure Pushed (s u : State) (ret : Nat) : Prop where
  stack : OnStack s u ret
  memory : ∀ a, (∀ k, k < s.cfg.pcBytes → a ≠ (below s k).toNat) → sramByte u.sram a = sramByte s.sram a
  rest : u = { s with sp := u.sp, sram := u.sram }

theorem pcBytes_cases (wf : s.cfg.wf) :
    (s.cfg.pcBytes = 2 ∧ s.cfg.pcBits ≤ 16) ∨ (s.cfg.pcBytes = 3 ∧ s.cfg.pcBits ≤ 22) := by
  obtain ⟨⟨-, bits⟩, bytes, -⟩ := wf
  split at bytes
  next small => exact .inl ⟨bytes, small⟩
  next => exact .inr ⟨bytes, bits⟩

/-- `PushPC` onto SRAM. -/
theorem pushPc_of_room (wf : s.cfg.wf) (room : StackRoom s s.cfg.pcBytes) (n : Nat) :
    ∃ u, pushPc n s = .ok u ∧ Pushed s u (n % 2 ^ s.cfg.pcBits) := by
  generalize value : n % 2 ^ s.cfg.pcBits = ret
  obtain ⟨bytes, -⟩ | ⟨bytes, -⟩ := pcBytes_cases wf
  · rw [bytes] at room
    have room1 := room_pushed room (addressByte ret 0)
    obtain ⟨sp, stored, memory, rest⟩ :=
      pushedBytes_foldl (bs := [addressByte ret 0, addressByte ret 1]) (by simp) room
    have cfg := congrArg State.cfg rest
    refine ⟨_, ?_, ⟨⟨cfg, by rw [bytes]; exact sp, (stored 0 (by simp)).trans ?_, stored 1 (by simp),
      by simp [bytes]⟩, by rw [bytes]; exact memory, rest⟩⟩
    · simp only [pushPc, value, push_of_room room, push_of_room room1, bytes]
      rfl
    · simp [addressByte]
  · rw [bytes] at room
    have room1 := room_pushed room (addressByte ret 0)
    have room2 := room_pushed room1 (addressByte ret 1)
    obtain ⟨sp, stored, memory, rest⟩ :=
      pushedBytes_foldl (bs := [addressByte ret 0, addressByte ret 1, addressByte ret 2]) (by simp) room
    have cfg := congrArg State.cfg rest
    refine ⟨_, ?_, ⟨⟨cfg, by rw [bytes]; exact sp, (stored 0 (by simp)).trans ?_, stored 1 (by simp),
      fun _ => stored 2 (by simp)⟩, by rw [bytes]; exact memory, rest⟩⟩
    · simp only [pushPc, value, push_of_room room, push_of_room room1, push_of_room room2, bytes]
      rfl
    · simp [addressByte]

/-- `PopPC` from SRAM. -/
theorem popPc_of_holds (wf : s.cfg.wf) (holds : StackHolds s s.cfg.pcBytes) :
    popPc s = .ok (storedReturn s, { s with sp := above s s.cfg.pcBytes }) := by
  obtain ⟨bytes, -⟩ | ⟨bytes, -⟩ := pcBytes_cases wf <;> rw [bytes] at holds ⊢
  · have holds1 := holds_popped holds
    have sp : readSp (popped s) + 1#16 = above s 2 := above_popped holds 1
    have mid : sramAt (popped s) (above (popped s) 1) = sramAt s (above s 2) := by rw [above_popped holds]; rfl
    simp only [popPc, popHigh, bytes, storedReturn, pop_of_holds holds, pop_of_holds holds1, mid, Nat.reduceEqDiff,
      if_false, BitVec.toNat_ofNat, Nat.zero_mod, Nat.zero_mul, Nat.zero_add]
    rw [popped, sp]
    rfl
  · have holds1 := holds_popped holds
    have holds2 := holds_popped holds1
    have sp : readSp (popped (popped s)) + 1#16 = above s 3 :=
      (above_popped holds1 1).trans (above_popped holds 2)
    have mid : sramAt (popped s) (above (popped s) 1) = sramAt s (above s 2) := by rw [above_popped holds]; rfl
    have low : sramAt (popped (popped s)) (above (popped (popped s)) 1) = sramAt s (above s 3) := by
      rw [above_popped holds1, above_popped holds]
      rfl
    simp only [popPc, popHigh, bytes, storedReturn, pop_of_holds holds, pop_of_holds holds1, pop_of_holds holds2, mid,
      low, if_true]
    rw [popped, sp]
    rfl

/-! ## There and back -/

theorem above_of_sp (sp : readSp t = below s n) {k : Nat} (hk : k ≤ n) : above t k = below s (n - k) := by
  obtain ⟨j, rfl⟩ := Nat.exists_eq_add_of_le hk
  rw [above, sp, below, below, Nat.add_sub_cancel_left, Nat.add_comm, BitVec.ofNat_add, ← BitVec.sub_sub,
    BitVec.sub_add_cancel]

theorem below_masked (room : StackRoom s n) {k : Nat} (hk : k ≤ n) : below s k &&& s.cfg.spMask = below s k := by
  cases k with
  | zero => rw [below_zero, readSp, BitVec.and_assoc, BitVec.and_self]
  | succ k => exact (room k hk).2

/-- What was pushed can be popped. -/
theorem holds_of_sp (room : StackRoom s n) (cfg : t.cfg = s.cfg) (sp : readSp t = below s n) : StackHolds t n := by
  intro k h1 hk
  rw [above_of_sp sp hk, cfg]
  exact ⟨(room (n - k) (by omega)).1, below_masked room (by omega)⟩

theorem toNat_addressBytes (ret : Nat) :
    (BitVec.ofNat 8 ret).toNat = ret % 256 ∧ (BitVec.ofNat 8 (ret / 2 ^ 8)).toNat = ret / 256 % 256 ∧
      (BitVec.ofNat 8 (ret / 2 ^ 16)).toNat = ret / 65536 % 256 :=
  ⟨BitVec.toNat_ofNat _ _, BitVec.toNat_ofNat _ _, BitVec.toNat_ofNat _ _⟩

/-- `PopPC` after `PushPC` of an address of `PC_BITS` bits. -/
theorem popPc_of_onStack (wf : s.cfg.wf) (room : StackRoom s s.cfg.pcBytes) {ret : Nat}
    (fits : ret < 2 ^ s.cfg.pcBits) (stack : OnStack s t ret) : popPc t = .ok (ret, { t with sp := readSp s }) := by
  obtain ⟨cfg, sp, low, mid, high⟩ := stack
  have holds := holds_of_sp room cfg sp
  obtain ⟨low_eq, mid_eq, high_eq⟩ := toNat_addressBytes ret
  have stored : storedReturn t = ret := by
    obtain ⟨bytes, bits⟩ | ⟨bytes, bits⟩ := pcBytes_cases wf <;> rw [bytes] at sp
    · have small : ret < 2 ^ 16 := lt_of_lt_of_le fits (Nat.pow_le_pow_right (by decide) bits)
      simp only [storedReturn, cfg, bytes, above_of_sp sp (by decide : 1 ≤ 2), above_of_sp sp (by decide : 2 ≤ 2),
        Nat.reduceSub, low, mid, low_eq, mid_eq, Nat.reduceEqDiff, if_false]
      omega
    · have small : ret < 2 ^ 22 := lt_of_lt_of_le fits (Nat.pow_le_pow_right (by decide) bits)
      simp only [storedReturn, cfg, bytes, above_of_sp sp (by decide : 1 ≤ 3), above_of_sp sp (by decide : 2 ≤ 3),
        above_of_sp sp (by decide : 3 ≤ 3), Nat.reduceSub, low, mid, high bytes, low_eq, mid_eq, high_eq, if_true]
      omega
  rw [popPc_of_holds (cfg ▸ wf) (cfg ▸ holds), stored, cfg, above_of_sp sp (Nat.le_refl _), Nat.sub_self, below_zero]

end

end Sys2Proof.Stack
end

section
/-! PROOFS. Jumps, calls, returns, skips, the branches after a compare, and the control instructions (R140 to R167, R190 to
R193). -/

namespace Sys2Proof.ControlFlow

open Sys2Proof.Machine Sys2Proof.Stack

/-! ## Targets -/

theorem toNat_z (s : State) :
    (readPointer s .z).toNat = (readReg s 31).toNat * 256 + (readReg s 30).toNat := toNat_append _ _

theorem extendedTarget_eq (s : State) : extendedTarget s = (s.eind &&& s.cfg.eindMask).toNat % 64 * 65536 +
    ((readReg s 31).toNat * 256 + (readReg s 30).toNat) := by
  have low_bits (x : Byte) : (x &&& 0x3F#8).toNat = x.toNat % 64 := by
    rw [BitVec.toNat_and]
    exact Nat.and_two_pow_sub_one_eq_mod x.toNat 6
  rw [extendedTarget, low_bits, toNat_z, readEind]

/-! ## Jumps (R150 to R153) -/

/-- Settles O16. -/
theorem jumpResults : Obligations.JumpResults := by
  intro s wf
  refine ⟨fun k => ⟨_, rfl, rfl, atOffset_setPc wf (relTarget_modEq s k.toInt)⟩,
    fun has => ⟨_, if_pos has, rfl, ?_⟩, fun has => ⟨_, if_pos has, rfl, ?_⟩, fun has k => ⟨_, if_pos has, rfl, ?_⟩⟩
  · rw [setPc_pc, toNat_pc wf, toNat_z]
  · rw [setPc_pc, toNat_pc wf, extendedTarget_eq]
  · rw [setPc_pc, toNat_pc wf]

/-! ## Calls (R154 to R157) -/

section
variable {i : Instr} {s t u : State} {n target : Nat}

/-- Where `PushPC` onto SRAM is followed by a jump. -/
theorem called_of_pushed {ret : Nat} (pushed : Pushed s u ret) (target : Nat) : Called s (setPc target u) ret target := by
  obtain ⟨⟨cfg, sp, low, mid, high⟩, memory, rest⟩ := pushed
  exact ⟨by rw [setPc_pc, cfg], sp, low, mid, high, memory, by rw [rest]; rfl⟩

theorem callsTo_of_callTo (call : exec i s = callTo n target s) : CallsTo i s n target := by
  constructor
  · intro u pushes
    rw [call, callTo, pushes]
  · intro f faults
    rw [call, callTo, faults]

theorem called_of_callTo (wf : s.cfg.wf) (call : exec i s = callTo n target s) (room : StackRoom s s.cfg.pcBytes) :
    ∃ t, exec i s = .next t ∧ Called s t ((s.pc.toNat + n) % 2 ^ s.cfg.pcBits) target := by
  obtain ⟨u, pushes, pushed⟩ := pushPc_of_room wf room (s.pc.toNat + n)
  exact ⟨_, (callsTo_of_callTo call).1 u pushes, called_of_pushed pushed target⟩

/-- Settles O17: each of the four is `callTo` of its target. -/
theorem callResults : Obligations.CallResults := by
  intro s wf
  have calls {i : Instr} {n target : Nat} (call : exec i s = callTo n target s) :=
    And.intro (callsTo_of_callTo call) (called_of_callTo wf call)
  refine ⟨fun k => calls rfl, fun has => calls ?_, fun has => calls ?_, fun has k => calls (if_pos has)⟩
  · rw [← toNat_z]
    exact if_pos has
  · rw [← extendedTarget_eq]
    exact if_pos has

/-! ## Returns (R158, R159) -/

theorem exec_ret_of_popPc (pops : popPc s = .ok (n, u)) : exec .ret s = .next (setPc n u) := by
  change answer (returnTo s) = _
  rw [returnTo, pops, answer]

theorem exec_reti_of_popPc (pops : popPc s = .ok (n, u)) : exec .reti s =
    .next { mapSreg (fun sr => putFlag sr .i true) (setPc n u) with irqInhibit := true } := by
  change answer (leaveInterrupt s) = _
  rw [leaveInterrupt, returnTo, pops, answer]

theorem exec_return_of_fault {f : Fault} (faults : popPc s = .error f) :
    exec .ret s = .fault f ∧ exec .reti s = .fault f := by
  constructor
  · change answer (returnTo s) = _
    rw [returnTo, faults, answer]
  · change answer (leaveInterrupt s) = _
    rw [leaveInterrupt, returnTo, faults, answer]

end

theorem readFlag_setI (u : State) (f : Flag) :
    readFlag (mapSreg (fun sr => putFlag sr .i true) u) f = if f = .i then true else readFlag u f := by
  simp [readFlag]

/-- Settles O18. -/
theorem returnResults : Obligations.ReturnResults := by
  intro s wf
  refine ⟨fun n u pops => ⟨exec_ret_of_popPc pops, _, exec_reti_of_popPc pops, rfl, readFlag_setI _ .i, ?_, rfl⟩,
    fun f faults => exec_return_of_fault faults, fun holds => ?_⟩
  · intro f hf
    have sreg : u.sreg = s.sreg := by rw [popPc_frame pops]
    exact (readFlag_setI _ f).trans ((if_neg hf).trans (readFlag_congr sreg f))
  · have pops := popPc_of_holds wf holds
    have sp : above s s.cfg.pcBytes &&& s.cfg.spMask = above s s.cfg.pcBytes :=
      (holds _ (by obtain ⟨bytes, -⟩ | ⟨bytes, -⟩ := pcBytes_cases wf <;> omega) (Nat.le_refl _)).2
    refine ⟨⟨_, exec_ret_of_popPc pops, toNat_pc wf _, sp, rfl⟩,
      ⟨_, exec_reti_of_popPc pops, toNat_pc wf _, sp, readFlag_setI _ .i, fun f hf => ?_, rfl⟩⟩
    exact (readFlag_setI _ f).trans (if_neg hf)

/-! ## A call and its return -/

/-- Each call that the device has is `callTo`, its length ahead. -/
theorem exec_call {i : Instr} {s : State} (call : isCall i = true) (present : Present i s) :
    ∃ target, exec i s = callTo i.words target s := by
  have has {g : Group} (groups : groupsOf s.cfg i = [g]) : s.cfg.has g = true := by
    simpa [Present, groups] using present
  cases i with
  | rcall k => exact ⟨_, rfl⟩
  | icall => exact ⟨_, if_pos (has rfl)⟩
  | eicall => exact ⟨_, if_pos (has rfl)⟩
  | call k => exact ⟨_, if_pos (has rfl)⟩
  | _ => cases call

/-- Settles O19: what `PushPC` pushed is what `PopPC` pops. -/
theorem callThenReturn : Obligations.CallThenReturn := by
  intro s t i wf call present room runs
  obtain ⟨target, exec_eq⟩ := exec_call call present
  obtain ⟨u, pushes, pushed⟩ := pushPc_of_room wf room (s.pc.toNat + i.words)
  have t_eq : t = setPc target u := by
    rw [exec_eq, callTo, pushes] at runs
    cases runs
    rfl
  subst t_eq
  obtain ⟨⟨cfg, sp, low, mid, high⟩, memory, rest⟩ := pushed
  have pops := popPc_of_onStack (t := setPc target u) wf room (Nat.mod_lt _ (by positivity))
    ⟨cfg, sp, low, mid, high⟩
  refine ⟨_, exec_ret_of_popPc pops, ?_, ?_, memory, by rw [rest]; rfl⟩
  · rw [setPc_pc]
    simp only [setPc_cfg, cfg, pcPlus, Nat.mod_mod]
  · change readSp s &&& u.cfg.spMask = readSp s
    rw [cfg, readSp, BitVec.and_assoc, BitVec.and_self]

/-! ## Skips (R143) -/

theorem skips_of_skipIf {i : Instr} {s u : State} {cond : Bool} (skip : exec i s = skipIf cond u) (pc : u.pc = s.pc)
    (cfg : u.cfg = s.cfg) (flash : u.flash = s.flash) : Skips i s u cond := by
  have word := pmWord_cases (u.pc.toNat + 1) u
  rw [pc, cfg, flash] at word
  have advanced (n : Nat) : advance n u = { u with pc := pcPlus s n } := by rw [advance, setPc, pc, cfg]; rfl
  refine ⟨fun no => ?_, fun yes within => ?_, fun yes beyond => ?_⟩
  · rw [skip, skipIf, no]
    obtain ⟨-, word⟩ | ⟨-, word⟩ := word <;> rw [pc, word] <;> simp [advanced]
  · obtain ⟨-, word⟩ | ⟨beyond, -⟩ := word
    · rw [skip, skipIf, yes, pc, word]
      simp [advanced, skipWords]
    · omega
  · obtain ⟨within, -⟩ | ⟨-, word⟩ := word
    · omega
    · rw [skip, skipIf, yes, pc, word]
      simp

theorem regionOf_io5 (c : Config) (a : BitVec 5) : regionOf c (ioAddress a) = .device a.toNat := by
  have address : (ioAddress a).toNat = a.toNat + 0x20 := by
    rw [ioAddress, BitVec.toNat_ofNat]
    omega
  rw [regionOf_io (by omega) (by omega), address, Nat.add_sub_cancel, ioRegion]
  rw [if_neg (by omega), if_neg (by omega), if_neg (by omega), if_neg (by omega), if_neg (by omega)]

/-- A read of one of the 32 lowest I/O registers is of a device (R55, R58). -/
theorem memRead_io5 (s : State) (a : BitVec 5) : memRead (ioAddress a) s = .ok (ioRead a.toNat s) := by
  rw [memRead]
  simp only [regionOf_io5]

theorem exec_sbic_io (a : BitVec 5) (b : BitVec 3) (s : State) : exec (.sbic a b) s =
    skipIf (!bitAt (ioRead a.toNat s).1 b.toNat) (ioRead a.toNat s).2 := by
  change execSbic a b s = _
  rw [execSbic, memRead_io5]

theorem exec_sbis_io (a : BitVec 5) (b : BitVec 3) (s : State) : exec (.sbis a b) s =
    skipIf (bitAt (ioRead a.toNat s).1 b.toNat) (ioRead a.toNat s).2 := by
  change execSbis a b s = _
  rw [execSbis, memRead_io5]

/-- Settles O20. -/
theorem skipResults : Obligations.SkipResults := by
  intro s d r b a
  have read := memRead_io5 s a
  refine ⟨skips_of_skipIf (by rw [← beq_eq_decide]; rfl) rfl rfl rfl, skips_of_skipIf rfl rfl rfl rfl,
    skips_of_skipIf rfl rfl rfl rfl, _, _, ioRead_frame a.toNat s, read, ?_, ?_⟩
  · exact skips_of_skipIf (by rw [exec_sbic_io]) (by rw [ioRead_frame]) (by rw [ioRead_frame]) (by rw [ioRead_frame])
  · exact skips_of_skipIf (by rw [exec_sbis_io]) (by rw [ioRead_frame]) (by rw [ioRead_frame]) (by rw [ioRead_frame])

/-! ## Compare and branch (R145) -/

/-- Settles O22: each branch tests one flag that `CP` left. -/
theorem compareThenBranch : Obligations.CompareThenBranch := by
  intro s t d r k wf runs
  obtain ⟨cp, -⟩ := Arithmetic.compareResults s d r 0#8
  obtain ⟨t', runs', -, ⟨-, -, -, rest⟩, ⟨c, -, -, -, s_flag⟩, z⟩ := cp
  cases runs.symm.trans runs'
  have cfg : t.cfg = s.cfg := by rw [rest]
  obtain ⟨-, named⟩ := branchResults t k (cfg ▸ wf)
  have branches {i : Instr} (f : Flag) (v : Bool) {taken : Bool} (flag : (readFlag t f == v) = taken)
      (row : (i, f, v) ∈ namedBranches k := by simp [namedBranches]) : Branches i t taken k := flag ▸ named _ row
  simp only [bitNat, Bool.false_eq_true, if_false, Nat.add_zero, Nat.cast_zero, sub_zero] at c s_flag
  refine ⟨branches .z true ?_, branches .z false ?_, branches .c true ?_, branches .c true ?_, branches .c false ?_,
    branches .c false ?_, branches .s true ?_, branches .s false ?_⟩
  all_goals simp only [z, c, s_flag, beq_true, beq_false, ← decide_not, not_lt, sub_neg]

/-! ## Control (R190 to R193) -/

/-- Settles O23. -/
theorem controlResults : Obligations.ControlResults := by
  intro s
  have unchanged {i : Instr} (ends : exec i s = nextAfter 1 s) : Completes i s 1 [] [] fun _ => True :=
    Arithmetic.completes_of_onlyRegs ends rfl (Arithmetic.onlyRegs_refl s [] []) trivial
  have brk (has : s.cfg.has .breakGroup = true) : exec .brk s = match s.cfg.breakMode with
      | .stop => nextAfter 1 { s with mode := .stopped }
      | .nop => nextAfter 1 s := if_pos has
  refine ⟨unchanged rfl, fun has nop => unchanged ?_, fun has stop => ?_, fun nop => unchanged ?_, fun sleep => ?_,
    fun absent => unchanged ?_, fun device => ?_⟩
  · rw [brk has, nop]
  · rw [brk has, stop]
    rfl
  · change execSleep s = _
    rw [execSleep, nop]
  · change execSleep s = _
    rw [execSleep, sleep]
    rfl
  · change execWdr s = _
    rw [execWdr, absent]
  · change execWdr s = _
    rw [execWdr, device]
    rfl

end Sys2Proof.ControlFlow
end

section
/-! PROOFS. The data space and the stack (R52 to R56, R64, R65). Where a byte lies decides what reads it, so a write is
compared with a read by their regions. -/

namespace Sys2Proof.DataSpace

open Sys2Proof.Machine Sys2Proof.Stack

section
variable {c : Config} {s t : State} {a b : Word} {v : Byte}

/-! ## The regions (R52, R55) -/

theorem regionOf_of_lt {a : Word} (h : a.toNat < 32) : regionOf c a = .register ⟨a.toNat, h⟩ := by
  rw [regionOf_register h]
  exact congrArg Region.register (Fin.ext (Nat.mod_eq_of_lt h))

theorem regionOf_cpu {io : Nat} (h : a.toNat = io + 0x20) (small : io < 0x40) : regionOf c a = ioRegion c io := by
  rw [regionOf_io (by omega) (by omega), h, Nat.add_sub_cancel]

theorem regionOf_device (h : (0x20 ≤ a.toNat ∧ a.toNat ≤ 0x5A) ∨ (a.toNat = 0x5B ∧ c.hasRampz = false) ∨
    (a.toNat = 0x5C ∧ c.hasEind = false) ∨ (0x60 ≤ a.toNat ∧ a.toNat < c.ramStart)) :
    regionOf c a = .device (a.toNat - 0x20) := by
  obtain ⟨lo, hi⟩ | ⟨h, no⟩ | ⟨h, no⟩ | ⟨lo, hi⟩ := h
  · rw [regionOf_io lo (by omega), ioRegion, if_neg (by omega), if_neg (by omega), if_neg (by omega),
      if_neg (by omega), if_neg (by omega)]
  · rw [regionOf_cpu (io := 0x3B) h (by decide), h]
    simp [ioRegion, no]
  · rw [regionOf_cpu (io := 0x3C) h (by decide), h]
    simp [ioRegion, no]
  · exact regionOf_extended lo hi

/-- Settles O24: each clause is one region. -/
theorem dataSpaceMap : Obligations.DataSpaceMap := by
  intro s a v wf
  obtain ⟨-, -, -, ⟨low, -, -⟩, -⟩ := id wf
  refine ⟨fun h => ?registers, fun h => ?sreg, fun h => ?sph, fun h => ?spl, fun h has => ?eind, fun h has => ?rampz,
    fun h => ?device, fun lo hi => ?sram, fun h => ?absent⟩
  case registers =>
    simp only [memRead, memWrite, regionOf_of_lt h, and_self]
  case sreg =>
    have region : regionOf s.cfg a = .sreg := regionOf_cpu (io := 0x3F) h (by decide)
    simp only [memRead, memWrite, region, and_self]
  case sph =>
    have region : regionOf s.cfg a = .sph := regionOf_cpu (io := 0x3E) h (by decide)
    simp only [memRead, memWrite, region]
    exact ⟨rfl, rfl⟩
  case spl =>
    have region : regionOf s.cfg a = .spl := regionOf_cpu (io := 0x3D) h (by decide)
    simp only [memRead, memWrite, region]
    exact ⟨rfl, rfl⟩
  case eind =>
    have region : regionOf s.cfg a = .eind := by
      rw [regionOf_cpu (io := 0x3C) h (by decide)]
      simp [ioRegion, has]
    simp only [memRead, memWrite, region]
    exact ⟨rfl, rfl⟩
  case rampz =>
    have region : regionOf s.cfg a = .rampz := by
      rw [regionOf_cpu (io := 0x3B) h (by decide)]
      simp [ioRegion, has]
    simp only [memRead, memWrite, region]
    exact ⟨rfl, rfl⟩
  case device =>
    simp only [memRead, memWrite, regionOf_device h]
    refine ⟨⟨(ioRead (a.toNat - 0x20) s).1, ?_, fun y rest inputs => ?_⟩, rfl⟩
    · rw [← ioRead_frame]
    · rw [ioRead, inputs]
  case sram =>
    have region : regionOf s.cfg a = .sram := regionOf_sram (by omega) lo hi
    simp only [memRead, memWrite, region]
    refine ⟨rfl, _, rfl, ?_, fun b hb => ?_, rfl⟩
    · rw [sramByte_write, if_pos rfl]
    · rw [sramByte_write, if_neg hb.symm]
  case absent =>
    simp only [memRead, memWrite, regionOf_absent wf h, and_self]

/-! ## A write and a read (R41, R71) -/

/-- What a data-space read gives, by region; a device's answer apart. -/
def readValue (s : State) (a : Word) : Region → Except Fault Byte
  | .register d => .ok (readReg s d)
  | .sreg => .ok s.sreg
  | .sph => .ok (hiByte (readSp s))
  | .spl => .ok (loByte (readSp s))
  | .eind => .ok (readEind s)
  | .rampz => .ok (readRampz s)
  | .device io => .ok (ioRead io s).1
  | .sram => .ok (sramByte s.sram a.toNat)
  | .absent => .error (.badAddress a)

theorem memRead_map_fst (a : Word) (s : State) :
    (memRead a s).map Prod.fst = readValue s a (regionOf s.cfg a) := by
  rw [memRead]
  cases regionOf s.cfg a <;> rfl

/-- The address of a register of the CPU in the data space (R52, R55). -/
def cpuAddress : Region → Option Nat
  | .register d => some d.val
  | .sreg => some 0x5F
  | .sph => some 0x5E
  | .spl => some 0x5D
  | .eind => some 0x5C
  | .rampz => some 0x5B
  | .device _ | .sram | .absent => none

theorem toNat_of_cpuAddress {n : Nat} (h : cpuAddress (regionOf c a) = some n) : a.toNat = n := by
  unfold regionOf at h
  split at h
  next small =>
    simp only [cpuAddress, Option.some.injEq, Fin.val_ofNat] at h
    omega
  split at h
  · unfold ioRegion at h
    repeat' split at h
    all_goals simp only [cpuAddress, Option.some.injEq, reduceCtorEq] at h
    all_goals omega
  · repeat' split at h
    all_goals cases h

/-- Two addresses of one register of the CPU are one. -/
theorem eq_of_cpuAddress {n : Nat} (ha : cpuAddress (regionOf c a) = some n) (hb : regionOf c b = regionOf c a) :
    a = b :=
  BitVec.eq_of_toNat_eq ((toNat_of_cpuAddress ha).trans (toNat_of_cpuAddress (hb ▸ ha)).symm)

theorem loByte_and (x y : Word) : loByte (x &&& y) = loByte x &&& loByte y := BitVec.extractLsb'_and

theorem hiByte_and (x y : Word) : hiByte (x &&& y) = hiByte x &&& hiByte y := BitVec.extractLsb'_and

theorem loByte_readSp_writeSp {w : Word} (s : State) (low : loByte w = loByte (readSp s)) :
    loByte (readSp (writeSp w s)) = loByte (readSp s) := by
  simp only [readSp, writeSp, loByte_and] at low ⊢
  simp only [low, BitVec.and_assoc, BitVec.and_self]

theorem hiByte_readSp_writeSp {w : Word} (s : State) (high : hiByte w = hiByte (readSp s)) :
    hiByte (readSp (writeSp w s)) = hiByte (readSp s) := by
  simp only [readSp, writeSp, hiByte_and] at high ⊢
  simp only [high, BitVec.and_assoc, BitVec.and_self]

/-- A write changes what is read in no region but its own. -/
theorem readValue_memWrite (writes : memWrite a v s = .ok t) (b : Word) {r : Region} (other : r ≠ regionOf s.cfg a)
    (no_device : ∀ io, r ≠ .device io) : readValue t b r = readValue s b r := by
  have low := loByte_readSp_writeSp s (loByte_append v (loByte (readSp s)))
  have high := hiByte_readSp_writeSp s (hiByte_append (hiByte (readSp s)) v)
  obtain ⟨d, region, rfl⟩ | ⟨region, rfl⟩ | ⟨region, rfl⟩ | ⟨region, rfl⟩ | ⟨region, rfl⟩ | ⟨region, rfl⟩ |
    ⟨io, region, rfl⟩ | ⟨region, rfl⟩ := memWrite_cases writes <;> rw [region] at other
  case inr.inr.inr.inr.inr.inr.inr =>
    cases r with
    | sram => exact absurd rfl other
    | device io => exact absurd rfl (no_device io)
    | register | sreg | sph | spl | eind | rampz | absent => rfl
  all_goals
    cases r with
    | device io => exact absurd rfl (no_device io)
    | register | sreg | sph | spl | eind | rampz | sram | absent => simp_all [readValue]

theorem regionOf_written (own : a.toNat < 0x20 ∨ a.toNat = 0x5F ∨ s.cfg.ramStart ≤ a.toNat) (wf : s.cfg.wf)
    (writes : memWrite a v s = .ok t) :
    (∃ d, regionOf s.cfg a = .register d) ∨ regionOf s.cfg a = .sreg ∨ regionOf s.cfg a = .sram := by
  obtain ⟨-, -, -, ⟨low, -, -⟩, -⟩ := id wf
  obtain small | sreg | high := own
  · exact .inl ⟨_, regionOf_of_lt small⟩
  · exact .inr (.inl (regionOf_cpu (io := 0x3F) sreg (by decide)))
  · refine .inr (.inr (regionOf_sram (by omega) high ?_))
    by_contra beyond
    rw [memWrite, regionOf_absent wf (by omega)] at writes
    cases writes

/-- Settles O25: a read of the region written gives the byte, and a read of another what it gave. -/
theorem writeThenRead : Obligations.WriteThenRead := by
  intro s t a b v wf writes
  have cfg : t.cfg = s.cfg := by rw [memWrite_frame writes]
  refine ⟨fun own => ?_, fun ne no_device => ?_⟩
  · obtain ⟨d, region⟩ | region | region := regionOf_written own wf writes
    all_goals
      simp only [memWrite, region, Except.ok.injEq] at writes
      simp only [memRead, cfg, region]
      subst writes
    · rw [readReg_writeReg, if_pos rfl]
    · rfl
    · rw [sramByte_write, if_pos rfl]
  · rw [memRead_map_fst, memRead_map_fst, cfg]
    by_cases same : regionOf s.cfg b = regionOf s.cfg a
    · have not_cpu : cpuAddress (regionOf s.cfg a) = none :=
        Option.eq_none_iff_forall_not_mem.mpr fun n hn => ne (eq_of_cpuAddress hn same)
      cases region : regionOf s.cfg a with
      | device io => exact absurd (same.trans region) (no_device io)
      | absent => simp only [memWrite, region, reduceCtorEq] at writes
      | sram =>
        have other : a.toNat ≠ b.toNat := fun h => ne (BitVec.eq_of_toNat_eq h)
        simp only [memWrite, region, Except.ok.injEq] at writes
        subst writes
        rw [same, region, readValue, readValue, sramByte_write, if_neg other]
      | register | sreg | sph | spl | eind | rampz => simp [region, cpuAddress] at not_cpu
    · exact readValue_memWrite writes b same no_device

/-! ## Push and pop (R64) -/

/-- Settles O26. -/
theorem pushAndPop : Obligations.PushAndPop := by
  intro s v wf
  have sp (x : Word) : readSp (writeSp x s) = x &&& s.cfg.spMask := and_mask_idem _ _
  refine ⟨fun u writes => ?_, fun beyond => ?_, ?_, fun beyond => ?_⟩
  · have cfg : u.cfg = s.cfg := by rw [memWrite_frame writes]
    refine ⟨_, by rw [push, writes], ?_, rfl⟩
    rw [← cfg]
    exact and_mask_idem _ _
  · rw [push, memWrite]
    simp only [regionOf_absent wf beyond]
  · rw [pop, sp]
    rfl
  · rw [pop, sp, memRead]
    simp only [writeSp, regionOf_absent wf beyond]

/-- Settles O27. -/
theorem pushPcThenPopPc : Obligations.PushPcThenPopPc := by
  intro s v wf fits room
  obtain ⟨t, pushes, stack, memory, rest⟩ := pushPc_of_room wf room v
  rw [Nat.mod_eq_of_lt fits] at stack
  obtain ⟨cfg, sp, low, mid, high⟩ := id stack
  refine ⟨t, pushes, by rw [rest], ⟨by rw [Nat.mod_eq_of_lt fits], sp, low, mid, high, memory, by rw [rest]⟩,
    _, popPc_of_onStack wf room fits stack, ?_, rfl⟩
  change readSp s &&& t.cfg.spMask = readSp s
  rw [cfg, readSp, and_mask_idem]

end

end Sys2Proof.DataSpace
end

section
/-! PROOFS. Loads and stores (R200 to R236, R244 to R247, R273, R274) and the faults they share (R88, R205). What a form does
is the access at its address; `plainLoads` and `plainStores` list the forms with the address of each. -/

namespace Sys2Proof.DataTransfer

open Sys2Proof.Machine Sys2Proof.Stack Sys2Proof.DataSpace

/-! ## The ends of an access -/

theorem advance_of_pc {s u : State} (pc : u.pc = s.pc) (cfg : u.cfg = s.cfg) (n : Nat) :
    advance n u = { u with pc := pcPlus s n } := by
  rw [advance, setPc, pc, cfg]
  rfl

theorem memRead_pc {s u : State} {a : Word} {v : Byte} (reads : memRead a s = .ok (v, u)) :
    u.pc = s.pc ∧ u.cfg = s.cfg := by
  rw [memRead_frame reads]
  exact ⟨rfl, rfl⟩

theorem memWrite_pc {s u : State} {a : Word} {v : Byte} (writes : memWrite a v s = .ok u) :
    u.pc = s.pc ∧ u.cfg = s.cfg := by
  rw [memWrite_frame writes]
  exact ⟨rfl, rfl⟩

/-! ## Loads without a pointer update -/

/-- The address of a displacement form (R202). -/
theorem displaced_eq (s : State) (p : Pointer) (q : BitVec 6) :
    displaced s p q = BitVec.ofNat 16 ((readPointer s p).toNat + q.toNat) := by
  rw [displaced, ← BitVec.toNat_inj, BitVec.toNat_add, BitVec.toNat_setWidth, BitVec.toNat_ofNat]
  omega

theorem has_of_present {i : Instr} {s : State} {g : Group} (groups : groupsOf s.cfg i = [g]) (present : Present i s) :
    s.cfg.has g = true := by
  simpa [Present, groups] using present

/-- A device that has the words of a plain `LD` or `ST` by `Y` or `Z` has the displacement 0 (R217; log 24). -/
theorem hasDisplaced_of_present_plain {i : Instr} {s : State} (groups : groupsOf s.cfg i = plainGroups s.cfg)
    (present : Present i s) : s.cfg.hasDisplaced 0#6 = true := by
  rw [Config.hasDisplaced_iff]
  rw [Present, groups, plainGroups] at present
  cases plain : s.cfg.plainWithoutLdd <;> simp [plain] at present ⊢
  · exact present
  · exact present

theorem hasDisplaced_of_present {i : Instr} {s : State} {q : BitVec 6}
    (groups : groupsOf s.cfg i = if q = 0#6 then plainGroups s.cfg else [.lddStd]) (present : Present i s) :
    s.cfg.hasDisplaced q = true := by
  split at groups
  next zero => exact zero ▸ hasDisplaced_of_present_plain groups present
  next => exact (Config.hasDisplaced_iff _ _).mpr (.inl (has_of_present groups present))

/-- What each of the loads without a pointer update is. -/
theorem exec_plainLoads (s : State) (d : Reg) (k : Word) (q : BitVec 6) : ∀ x ∈ plainLoads s d k q, Present x.1 s →
    exec x.1 s = finish x.2.2 (loadFrom x.2.1 d s) := by
  simp only [plainLoads, List.forall_mem_cons, ← displaced_eq]
  exact ⟨fun present => if_pos (has_of_present rfl present), fun present => if_pos (has_of_present rfl present),
    fun present => if_pos (hasDisplaced_of_present_plain rfl present),
    fun present => if_pos (hasDisplaced_of_present_plain rfl present),
    fun present => if_pos (hasDisplaced_of_present rfl present),
    fun present => if_pos (hasDisplaced_of_present rfl present), List.forall_mem_nil _⟩

theorem exec_plainStores (s : State) (r : Reg) (k : Word) (q : BitVec 6) : ∀ x ∈ plainStores s r k q, Present x.1 s →
    exec x.1 s = finish x.2.2 (memWrite x.2.1 (readReg s r) s) := by
  simp only [plainStores, List.forall_mem_cons, ← displaced_eq]
  exact ⟨fun present => if_pos (has_of_present rfl present), fun present => if_pos (has_of_present rfl present),
    fun present => if_pos (hasDisplaced_of_present_plain rfl present),
    fun present => if_pos (hasDisplaced_of_present_plain rfl present),
    fun present => if_pos (hasDisplaced_of_present rfl present),
    fun present => if_pos (hasDisplaced_of_present rfl present), List.forall_mem_nil _⟩

/-- A load that completes. -/
theorem loads_of_finish {i : Instr} {s : State} {a : Word} {d : Reg} {n : Nat}
    (ends : exec i s = finish n (loadFrom a d s)) (present : regionOf s.cfg a ≠ .absent) :
    ∃ v u t, memRead a s = .ok (v, u) ∧ exec i s = .next t ∧ readReg t d = v ∧ t.pc = pcPlus s n ∧
      OnlyLoaded s u t [d] := by
  obtain ⟨v, u, reads⟩ := memRead_ok present
  have frame := memRead_frame reads
  have cfg : u.cfg = s.cfg := by rw [frame]
  refine ⟨v, u, advance n (writeReg d v u), reads, by rw [ends, loadFrom, reads, finish], by simp, ?_, ?_⟩
  · rw [advance, setPc_pc, writeReg_pc, writeReg_cfg, frame]
    rfl
  · refine ⟨fun e he => ?_, fun a => ?_, ?_⟩
    · have ne : e ≠ d := by simpa using he
      rw [readReg_advance, readReg_writeReg, if_neg ne, frame]
      rfl
    · rw [frame]
      rfl
    · rw [frame]
      rfl

/-- Settles O28. -/
theorem loadResults : Obligations.LoadResults := fun s d k q x hx present within =>
  loads_of_finish (exec_plainLoads s d k q x hx present) (regionOf_exists within)

/-! ## Stores without a pointer update -/

theorem exec_of_finish_memWrite {i : Instr} {s u : State} {a : Word} {v : Byte} {n : Nat}
    (ends : exec i s = finish n (memWrite a v s)) (writes : memWrite a v s = .ok u) :
    exec i s = .next { u with pc := pcPlus s n } := by
  obtain ⟨pc, cfg⟩ := memWrite_pc writes
  rw [ends, writes, finish, advance_of_pc pc cfg]

theorem memWrite_of_sram {s : State} {a : Word} (region : regionOf s.cfg a = .sram) (v : Byte) :
    memWrite a v s = .ok { s with sram := Memory.write s.sram a.toNat v } := by
  simp only [memWrite, region]

theorem onlyByte_write {s t : State} {a : Word} {v : Byte}
    (t_eq : t = { s with pc := t.pc, sram := Memory.write s.sram a.toNat v }) : OnlyByte s t a.toNat v := by
  have sram := congrArg State.sram t_eq
  refine ⟨?_, fun b hb => ?_, ?_⟩
  · rw [sram, sramByte_write, if_pos rfl]
  · rw [sram, sramByte_write, if_neg hb.symm]
  · rw [t_eq]

/-- Settles O30. -/
theorem storeResults : Obligations.StoreResults := by
  intro s r k q x hx present
  have ends := exec_plainStores s r k q x hx present
  refine ⟨fun within => ?_, fun region => ?_⟩
  · obtain ⟨u, writes⟩ := memWrite_ok (v := readReg s r) (s := s) (regionOf_exists within)
    exact ⟨u, writes, exec_of_finish_memWrite ends writes⟩
  · exact ⟨_, exec_of_finish_memWrite ends (memWrite_of_sram region _), rfl, onlyByte_write rfl⟩

end Sys2Proof.DataTransfer
end

section
/-! PROOFS. Loads and stores that update their pointer (R201, R209, R215 to R235), I/O and the stack (R244 to R247, R273,
R274). -/

namespace Sys2Proof.DataTransfer

open Sys2Proof.Machine Sys2Proof.Stack Sys2Proof.DataSpace

/-! ## Pointer updates (R201) -/

theorem ifDefined_of_not_holds {p : Pointer} {d : Reg} (holds : p.holds d = false) (i : Instr) (run : State → Result)
    (s : State) : ifDefined p d i run s = run s := by
  rw [ifDefined, holds]
  rfl

theorem ne_of_not_holds {p : Pointer} {d : Reg} (holds : p.holds d = false) : d ≠ p.low ∧ d ≠ p.low + 1 := by
  simpa [Pointer.holds] using holds

/-- The four forms behind their guards. -/
theorem exec_pointer_forms {p : Pointer} {d : Reg} {s : State} (has : s.cfg.has .ldStVariants = true)
    (holds : p.holds d = false) :
    exec (ldInc p d) s = finish 1 (loadPostInc p d s) ∧ exec (ldDec p d) s = finish 1 (loadPreDec p d s) ∧
      exec (stInc p d) s = finish 1 (storePostInc p d s) ∧ exec (stDec p d) s = finish 1 (storePreDec p d s) := by
  simp only [exec_ldInc, exec_ldDec, exec_stInc, exec_stDec, ifHas_of_has has, ifDefined_of_not_holds holds, and_self]

theorem toNat_add_one_word (x : Word) : (x + 1#16).toNat = (x.toNat + 1) % 65536 := BitVec.toNat_add x 1#16

theorem toNat_sub_one_word (x : Word) : (x - 1#16).toNat = (x.toNat + 65535) % 65536 := by
  rw [BitVec.toNat_sub, BitVec.toNat_ofNat]
  omega

/-- A write of a register that is not the pointer's leaves the pointer. -/
theorem readPointer_writeReg {p : Pointer} {d : Reg} (holds : p.holds d = false) (v : Byte) (s : State) :
    readPointer (writeReg d v s) p = readPointer s p := by
  obtain ⟨low, high⟩ := ne_of_not_holds holds
  simp [readPointer, readPair, low.symm, high.symm]

/-- Settles O29. -/
theorem pointerLoadResults : Obligations.PointerLoadResults := by
  intro s p d has holds
  obtain ⟨exec_inc, exec_dec, -, -⟩ := exec_pointer_forms has holds
  obtain ⟨low, high⟩ := ne_of_not_holds holds
  refine ⟨fun within => ?_, fun within => ?_⟩
  · obtain ⟨v, u, reads⟩ := memRead_ok (s := s) (regionOf_exists within)
    have frame := memRead_frame reads
    refine ⟨v, u, _, reads, by rw [exec_inc, loadPostInc, loadFrom, reads, finish], ?_, ?_, ?_, ?_, ?_, ?_⟩
    · simp [readReg_writePointer, low, high]
    · rw [← toNat_add_one_word]
      exact congrArg BitVec.toNat (readPointer_writePointer p _ _)
    · rw [frame]
      rfl
    · intro e he
      obtain ⟨ne, ne_low, ne_high⟩ : e ≠ d ∧ e ≠ p.low ∧ e ≠ p.low + 1 := by simpa using he
      simp only [readReg_advance, readReg_writePointer, readReg_writeReg, if_neg ne, if_neg ne_low, if_neg ne_high]
      rw [frame]
      rfl
    · intro a
      rw [frame]
      rfl
    · rw [frame]
      rfl
  · obtain ⟨v, u, reads⟩ := memRead_ok (s := writePointer p (readPointer s p - 1#16) s) (regionOf_exists within)
    have frame := memRead_frame reads
    refine ⟨v, u, _, reads, by rw [exec_dec, loadPreDec, loadFrom, reads, finish], ?_, ?_, ?_, ?_, ?_, ?_⟩
    · simp
    · rw [← toNat_sub_one_word]
      refine congrArg BitVec.toNat ((readPointer_writeReg holds v u).trans ?_)
      rw [frame]
      exact readPointer_writePointer p _ _
    · rw [frame]
      rfl
    · intro e he
      obtain ⟨ne, ne_low, ne_high⟩ : e ≠ d ∧ e ≠ p.low ∧ e ≠ p.low + 1 := by simpa using he
      rw [readReg_advance, readReg_writeReg, if_neg ne, frame]
      exact (readReg_writePointer _ _ _ _).trans (by rw [if_neg ne_high, if_neg ne_low])
    · intro a
      rw [frame]
      rfl
    · rw [frame]
      rfl

/-- Settles O31. -/
theorem pointerStoreResults : Obligations.PointerStoreResults := by
  intro s p r has holds
  obtain ⟨-, -, exec_inc, exec_dec⟩ := exec_pointer_forms has holds
  have inc {u : State} (writes : memWrite (readPointer s p) (readReg s r) s = .ok u) :
      exec (stInc p r) s = .next { writePointer p (readPointer s p + 1#16) u with pc := pcPlus s 1 } := by
    obtain ⟨pc, cfg⟩ := memWrite_pc writes
    rw [exec_inc, storePostInc, writes, finish]
    exact congrArg Host.Outcome.next (advance_of_pc (u := writePointer p _ u) pc cfg 1)
  have dec {u : State} (writes : memWrite (readPointer s p - 1#16) (readReg s r) s = .ok u) :
      exec (stDec p r) s = .next { writePointer p (readPointer s p - 1#16) u with pc := pcPlus s 1 } := by
    obtain ⟨pc, cfg⟩ := memWrite_pc writes
    rw [exec_dec, storePreDec, writes, finish]
    exact congrArg Host.Outcome.next (advance_of_pc (u := writePointer p _ u) pc cfg 1)
  have kept (v : Word) (u : State) (e : Reg) (he : e ∉ [p.low, p.low + 1]) :
      readReg (writePointer p v u) e = readReg u e := by
    obtain ⟨ne_low, ne_high⟩ : e ≠ p.low ∧ e ≠ p.low + 1 := by simpa using he
    rw [readReg_writePointer, if_neg ne_high, if_neg ne_low]
  refine ⟨fun within => ?_, fun region => ?_, fun within => ?_, fun region => ?_⟩
  · obtain ⟨u, writes⟩ := memWrite_ok (v := readReg s r) (s := s) (regionOf_exists within)
    exact ⟨u, writes, inc writes⟩
  · refine ⟨_, inc (memWrite_of_sram region _), rfl, onlyByte_write rfl, ?_, kept _ _⟩
    rw [← toNat_add_one_word]
    exact congrArg BitVec.toNat (readPointer_writePointer p _ _)
  · obtain ⟨u, writes⟩ := memWrite_ok (v := readReg s r) (s := s) (regionOf_exists within)
    exact ⟨u, writes, dec writes⟩
  · refine ⟨_, dec (memWrite_of_sram region _), rfl, onlyByte_write rfl, ?_, kept _ _⟩
    rw [← toNat_sub_one_word]
    exact congrArg BitVec.toNat (readPointer_writePointer p _ _)

/-! ## I/O (R244, R245) -/

theorem toNat_ioAddress (a : BitVec 6) : (ioAddress a).toNat = a.toNat + 0x20 := by
  rw [ioAddress, BitVec.toNat_ofNat]
  omega

theorem regionOf_io6 (c : Config) (a : BitVec 6) : regionOf c (ioAddress a) = ioRegion c a.toNat :=
  regionOf_cpu (toNat_ioAddress a) a.isLt

theorem ioAddress_exists (c : Config) (a : BitVec 6) : regionOf c (ioAddress a) ≠ .absent := by
  rw [regionOf_io6]
  exact (ioRegion_ne_absent c _).1

/-- `IN` from a register of the CPU. -/
theorem exec_inp_of_read {s : State} {a : BitVec 6} {v : Byte} (reads : memRead (ioAddress a) s = .ok (v, s)) (d : Reg) :
    exec (.inp d a) s = nextAfter 1 (writeReg d v s) := by
  change finish 1 (loadFrom (ioAddress a) d s) = _
  rw [loadFrom, reads]
  rfl

/-- Settles O36. -/
theorem inOutResults : Obligations.InOutResults := by
  intro s d r
  have sreg : regionOf s.cfg (ioAddress 0x3F#6) = .sreg := regionOf_io6 _ _
  have sph : regionOf s.cfg (ioAddress 0x3E#6) = .sph := regionOf_io6 _ _
  have spl : regionOf s.cfg (ioAddress 0x3D#6) = .spl := regionOf_io6 _ _
  have read_sreg : memRead (ioAddress 0x3F#6) s = .ok (s.sreg, s) := by simp only [memRead, sreg]
  have read_sph : memRead (ioAddress 0x3E#6) s = .ok (hiByte (readSp s), s) := by simp only [memRead, sph]
  have read_spl : memRead (ioAddress 0x3D#6) s = .ok (loByte (readSp s), s) := by simp only [memRead, spl]
  refine ⟨fun a => loads_of_finish rfl (ioAddress_exists _ a), fun a => ?_,
    Arithmetic.completes_of_writeReg (exec_inp_of_read read_sreg d) fun t value f => ?_,
    Arithmetic.completes_of_writeReg (exec_inp_of_read read_sph d) fun t value => value,
    Arithmetic.completes_of_writeReg (exec_inp_of_read read_spl d) fun t value => value, ?_⟩
  · obtain ⟨u, writes⟩ := memWrite_ok (v := readReg s r) (s := s) (ioAddress_exists _ a)
    exact ⟨u, writes, exec_of_finish_memWrite rfl writes, by rw [memWrite_frame writes]⟩
  · rw [value]
    rfl
  · have ends : exec (.out 0x3F#6 r) s = nextAfter 1 (mapSreg (fun _ => readReg s r) s) := by
      change finish 1 (memWrite (ioAddress 0x3F#6) (readReg s r) s) = _
      simp only [memWrite, sreg]
      rfl
    refine Arithmetic.completes_of_onlyRegs ends rfl
      (Arithmetic.onlyRegs_mapSreg (Arithmetic.onlyRegs_refl s _ _) fun sr g hg => ?_) fun f => rfl
    cases g <;> simp at hg

/-- Settles O37. -/
theorem sbiCbiResults : Obligations.SbiCbiResults := by
  intro s a b
  have changes {i : Instr} {bit : Bool} (ends : exec i s = match memRead (ioAddress a) s with
      | .ok (v, s1) => finish 1 (memWrite (ioAddress a) (putBit v b.toNat bit) s1)
      | .error f => .fault f) :
      ∃ t v w, exec i s = .next t ∧ t.pc = pcPlus s 1 ∧
        t.ioTrace = .write a.toNat w :: .read a.toNat v :: s.ioTrace ∧
        (∀ y rest, s.ioInputs = y :: rest → v = y) ∧
        (∀ j, j < 8 → bitAt w j = if j = b.toNat then bit else bitAt v j) ∧
        t = { s with pc := t.pc, ioTrace := t.ioTrace, ioInputs := s.ioInputs.tail } := by
    have writes (v : Byte) (u : State) :
        memWrite (ioAddress a) v u = .ok (tellDevices (.write a.toNat v) u) := by
      simp only [memWrite, ControlFlow.regionOf_io5]
    rw [ControlFlow.memRead_io5] at ends
    simp only [writes, finish, ioRead_frame] at ends
    refine ⟨_, (ioRead a.toNat s).1, _, ends, rfl, rfl, fun y rest inputs => by rw [ioRead, inputs], fun j _ => ?_, rfl⟩
    exact bitAt_putBit _ _ _ _ b.isLt
  exact ⟨changes rfl, changes rfl⟩

/-! ## `PUSH` and `POP` (R246, R247) -/

theorem push_pc {v : Byte} {s u : State} (pushes : push v s = .ok u) : u.pc = s.pc ∧ u.cfg = s.cfg := by
  obtain ⟨w, writes, rfl⟩ := push_cases pushes
  obtain ⟨pc, cfg⟩ := memWrite_pc writes
  exact ⟨pc, cfg⟩

section
variable {s u : State} {v : Byte} (has : s.cfg.has .pushPop = true)
include has

theorem exec_push_of_push {r : Reg} (pushes : push (readReg s r) s = .ok u) :
    exec (.push r) s = .next { u with pc := pcPlus s 1 } := by
  obtain ⟨pc, cfg⟩ := push_pc pushes
  have ends : exec (.push r) s = finish 1 (push (readReg s r) s) := if_pos has
  rw [ends, pushes, finish, advance_of_pc pc cfg]

theorem exec_pop_of_pop (d : Reg) (pops : pop s = .ok (v, u)) :
    exec (.pop d) s = .next { writeReg d v u with pc := pcPlus s 1 } := by
  have frame := pop_frame pops
  have ends : exec (.pop d) s = finish 1 (popInto d s) := if_pos has
  rw [ends, popInto, pops, finish, advance_of_pc (s := s) (by rw [frame]; rfl) (by rw [frame]; rfl)]

end

theorem readReg_written {d e : Reg} {v : Byte} {s u : State} (regs : u.regs = s.regs) (ne : e ≠ d) (pc : PcAddr) :
    readReg { writeReg d v u with pc := pc } e = readReg s e := by
  refine (readReg_writeReg d e v u).trans ?_
  rw [if_neg ne, readReg_congr regs]

/-- Settles O38: what `PUSH` pushed onto SRAM, `POP` pops. -/
theorem pushPopResults : Obligations.PushPopResults := by
  intro s d r has
  refine ⟨fun u pushes => exec_push_of_push has pushes, fun f faults => ?_, fun v u pops => ?_, fun f faults => ?_,
    fun room => ?_, fun holds => ?_⟩
  · have ends : exec (.push r) s = finish 1 (push (readReg s r) s) := if_pos has
    rw [ends, faults, finish]
  · have regs : u.regs = s.regs := by rw [pop_frame pops]
    exact ⟨_, exec_pop_of_pop has d pops, rfl, by simp [readReg], fun e ne => readReg_written regs ne _, rfl⟩
  · have ends : exec (.pop d) s = finish 1 (popInto d s) := if_pos has
    rw [ends, popInto, faults, finish]
  · have stores := push_of_room room (readReg s r)
    let t : State := { pushed (readReg s r) s with pc := pcPlus s 1 }
    have sp : readSp t = below s 1 := below_one_masked room
    have byte : OnlyByte { s with sp := t.sp } t (readSp s).toNat (readReg s r) := onlyByte_write rfl
    have holds : StackHolds t 1 := holds_of_sp room rfl sp
    have top : above t 1 = readSp s := (above_of_sp sp (Nat.le_refl 1)).trans (below_zero s)
    have pops := pop_of_holds holds
    rw [top, sramAt, byte.stored] at pops
    refine ⟨t, _, exec_push_of_push has stores, sp, byte, rfl, exec_pop_of_pop (s := t) has r pops, ?_, fun e => ?_⟩
    · exact (above_one_masked holds).trans top
    · by_cases same : e = r
      · rw [same]
        exact (readReg_writeReg r r _ _).trans (if_pos rfl)
      · exact readReg_written rfl same _
  · have pops := pop_of_holds holds
    exact ⟨_, exec_pop_of_pop has d pops, (readReg_writeReg d d _ _).trans (if_pos rfl), above_one_masked holds, rfl,
      fun e ne => readReg_written rfl ne _, rfl⟩

end Sys2Proof.DataTransfer
end

section
/-! PROOFS. Program memory (R62, R63, R237 to R243), and the faults of absent groups and of addresses that do not exist (R88,
R205). -/

namespace Sys2Proof.DataTransfer

open Sys2Proof.Machine Sys2Proof.Stack Sys2Proof.DataSpace

/-! ## Loads from program memory (R62) -/

/-- The byte that a byte address selects from its word. -/
theorem flashByte_eq (m : Memory) (b : Nat) : flashByte m b =
    if b % 2 = 0 then loByte (flashWord m (b / 2)) else hiByte (flashWord m (b / 2)) := by
  split
  next even =>
    have address : 2 * (b / 2) = b := by omega
    rw [flashWord, wordOf, loByte_append, address]
  next odd =>
    have address : 2 * (b / 2) + 1 = b := by omega
    rw [flashWord, wordOf, hiByte_append, address]

theorem loadProgram_of_within {s : State} {b : Nat} (within : b / 2 < s.cfg.flashWords) (d : Reg) :
    loadProgram b d s = .ok (writeReg d (flashByte s.flash b) s) := by
  rw [loadProgram, pmByte, if_pos within]

theorem loadProgram_of_beyond {s : State} {b : Nat} (beyond : s.cfg.flashWords ≤ b / 2) (d : Reg) :
    loadProgram b d s = .error (.badFetch (b / 2)) := by
  rw [loadProgram, pmByte, if_neg (by omega)]

/-- What each of `LPM` and `ELPM` is. -/
theorem exec_lpm {s : State} (has : s.cfg.has .lpmVariants = true) (d : Reg) :
    exec .lpm s = finish 1 (loadProgram (readPointer s .z).toNat 0 s) ∧
      exec (.lpmZ d) s = finish 1 (loadProgram (readPointer s .z).toNat d s) ∧
      (d ≠ 30 → d ≠ 31 → exec (.lpmZInc d) s = finish 1 (loadProgramInc d s)) := by
  refine ⟨if_pos has, if_pos has, fun low high => ?_⟩
  have holds : Pointer.z.holds d = false := by
    rw [Bool.eq_false_iff, ne_eq, holds_z_iff]
    exact not_or.mpr ⟨low, high⟩
  rw [exec_lpmZInc, ifHas_of_has has, ifDefined_of_not_holds holds]

theorem exec_elpm {s : State} (has : s.cfg.has .elpm = true) (d : Reg) :
    exec .elpm s = finish 1 (loadProgram (extendedZ s) 0 s) ∧
      exec (.elpmZ d) s = finish 1 (loadProgram (extendedZ s) d s) ∧
      (d ≠ 30 → d ≠ 31 → exec (.elpmZInc d) s = finish 1 (loadExtendedInc d s)) := by
  refine ⟨if_pos has, if_pos has, fun low high => ?_⟩
  have holds : Pointer.z.holds d = false := by
    rw [Bool.eq_false_iff, ne_eq, holds_z_iff]
    exact not_or.mpr ⟨low, high⟩
  rw [exec_elpmZInc, ifHas_of_has has, ifDefined_of_not_holds holds]

/-- A form without an increment completes with the byte. -/
theorem completes_loadProgram {i : Instr} {s : State} {b : Nat} {d : Reg}
    (ends : exec i s = finish 1 (loadProgram b d s)) (within : b / 2 < s.cfg.flashWords) :
    Completes i s 1 [d] [] fun t => readReg t d =
      if b % 2 = 0 then loByte (flashWord s.flash (b / 2)) else hiByte (flashWord s.flash (b / 2)) := by
  rw [loadProgram_of_within within] at ends
  refine Arithmetic.completes_of_writeReg ends fun t value => ?_
  rw [value, flashByte_eq]

theorem readReg_writePointer_z {e : Reg} (low : e ≠ 30) (high : e ≠ 31) (v : Word) (s : State) :
    readReg (writePointer .z v s) e = readReg s e :=
  (readReg_writePointer .z e v s).trans ((if_neg high).trans (if_neg low))

/-- Settles O33. -/
theorem lpmResults : Obligations.LpmResults := by
  intro s d has z w byte within
  obtain ⟨lpm, lpmZ, lpmZInc⟩ := exec_lpm has d
  refine ⟨completes_loadProgram lpm within, completes_loadProgram lpmZ within, fun low high => ?_⟩
  have ends := lpmZInc low high
  rw [loadProgramInc, loadProgram_of_within within] at ends
  refine Arithmetic.completes_of_onlyRegs ends rfl (Arithmetic.onlyRegs_writePair
    (Arithmetic.onlyRegs_writeReg (Arithmetic.onlyRegs_refl s _ _) _ (by simp)) _ (by simp [Pointer.low])
      (by simp [Pointer.low])) ⟨?_, ?_⟩
  · rw [readReg_advance, readReg_writePointer_z low high, readReg_writeReg, if_pos rfl]
    exact flashByte_eq _ _
  · rw [← toNat_add_one_word]
    exact congrArg BitVec.toNat (readPointer_writePointer .z _ _)

/-- Settles O34. -/
theorem elpmResults : Obligations.ElpmResults := by
  intro s d has a w byte within
  obtain ⟨elpm, elpmZ, elpmZInc⟩ := exec_elpm has d
  refine ⟨completes_loadProgram elpm within, completes_loadProgram elpmZ within, fun low high => ?_⟩
  have ends := elpmZInc low high
  rw [loadExtendedInc, loadProgram_of_within (b := extendedZ s) within] at ends
  refine ⟨_, ends, rfl, ?_, ?_, rfl, fun e he => ?_, rfl⟩
  · rw [readReg_advance, writeExtendedZ, readReg_writeRampz, readReg_writePointer_z low high, readReg_writeReg,
      if_pos rfl]
    exact flashByte_eq _ _
  · have pointer : readPointer (writeExtendedZ ((a + 1) % 2 ^ 24) (writeReg d (flashByte s.flash a) s)) .z =
        BitVec.ofNat 16 ((a + 1) % 2 ^ 24) := readPointer_writePointer .z _ _
    refine (congrArg BitVec.toNat pointer).trans ?_
    rw [BitVec.toNat_ofNat]
    omega
  · obtain ⟨ne, ne_low, ne_high⟩ : e ≠ d ∧ e ≠ 30 ∧ e ≠ 31 := by simpa using he
    rw [readReg_advance, writeExtendedZ, readReg_writeRampz, readReg_writePointer_z ne_low ne_high,
      readReg_writeReg, if_neg ne]

/-! ## `SPM` (R243) -/

theorem flashByte_applyEdits {c : Config} (edits : List (Nat × Byte)) {m : Memory} (wf : Memory.flashWf c m) {b : Nat}
    (beyond : 2 * c.flashWords ≤ b) : flashByte (applyEdits c edits m) b = flashByte m b := by
  induction edits generalizing m with
  | nil => rfl
  | cons edit edits ih =>
    obtain ⟨a, v⟩ := edit
    rw [applyEdits]
    split
    next within => rw [ih (flashWf_put wf within), flashByte_put a b v wf, if_neg (by omega)]
    next => exact ih wf

theorem exec_spm {s : State} (has : s.cfg.has .spm = true) : exec .spm s = match s.cfg.spmModel with
    | .refuse => .fault (.unmodelled s.pc)
    | .device =>
      let s1 := tellDevices (.spm (selfProgramAddress s) (readPair s 0)) s
      nextAfter 1 { s1 with flash := applyEdits s.cfg (Config.spmEdits s1.ioTrace) s.flash } :=
  if_pos has

theorem selfProgramAddress_eq (s : State) : selfProgramAddress s =
    (if s.cfg.hasRampz then (s.rampz &&& s.cfg.rampzMask).toNat * 65536 else 0) + (readPointer s .z).toNat := by
  rw [selfProgramAddress]
  split
  · rfl
  · rw [Nat.zero_add]

/-- Settles O35. -/
theorem spmResults : Obligations.SpmResults := by
  intro s has
  refine ⟨fun refuse => ?_, fun device wf => ?_⟩
  · rw [exec_spm has, refuse]
  · have ends := exec_spm has
    rw [device] at ends
    exact ⟨_, _, ends, rfl, selfProgramAddress_eq s, rfl, flashWf_applyEdits _ wf, fun b beyond =>
      flashByte_applyEdits _ wf beyond, rfl⟩

/-! ## Absent groups (R88) -/

/-- A device that lacks the groups of a displacement form lacks the form, and the first of them is `LDD_STD`. -/
theorem lacks_displaced {c : Config} {q : BitVec 6} {g : Group} {rest : List Group}
    (groups : (if q = 0#6 then plainGroups c else [.lddStd]) = g :: rest) (absent : ∀ h ∈ g :: rest, c.has h = false) :
    g = .lddStd ∧ ¬ c.hasDisplaced q = true := by
  rw [Config.hasDisplaced_iff]
  rw [← groups] at absent
  by_cases zero : q = 0#6
  · cases plain : c.plainWithoutLdd <;> simp [zero, plainGroups, plain] at groups absent ⊢
    · exact ⟨groups.1.symm, absent⟩
    · exact ⟨groups.1.symm, absent⟩
  · simp [zero] at groups absent ⊢
    exact ⟨groups.1.symm, absent⟩

/-- Settles O39. -/
theorem absentGroupFaults : Obligations.AbsentGroupFaults := by
  intro i s g rest groups absent
  have lacks : s.cfg.has g = false := absent g List.mem_cons_self
  cases i with
  | adiw | sbiw | mul | muls | mulsu | fmul | fmuls | fmulsu | ijmp | icall | eijmp | eicall | jmp | call | brk | movw
  | lds | sts | ldX | ldXInc | ldXDec | ldYInc | ldYDec | ldZInc | ldZDec | stX | stXInc | stXDec | stYInc | stYDec
  | stZInc | stZDec | lpm | lpmZ | lpmZInc | elpm | elpmZ | elpmZInc | spm | push | pop =>
    cases groups
    exact if_neg (by rw [lacks]; decide)
  | ldY | ldZ | stY | stZ =>
    obtain ⟨rfl, no_form⟩ := lacks_displaced (q := 0#6) ((if_pos rfl).trans groups) absent
    exact if_neg no_form
  | lddY _ q | lddZ _ q | stdY q | stdZ q =>
    obtain ⟨rfl, no_form⟩ := lacks_displaced (q := q) groups absent
    exact if_neg no_form
  | _ => cases groups

/-! ## Addresses that do not exist (R205) -/

section
variable {s : State} {a : Word} (wf : s.cfg.wf) (beyond : s.cfg.ramEnd < a.toNat)
include wf beyond

theorem memRead_of_beyond : memRead a s = .error (.badAddress a) := by
  simp only [memRead, regionOf_absent wf beyond]

theorem memWrite_of_beyond (v : Byte) : memWrite a v s = .error (.badAddress a) := by
  simp only [memWrite, regionOf_absent wf beyond]

end

/-- Settles O40. -/
theorem accessFaults : Obligations.AccessFaults := by
  intro s d k q wf
  refine ⟨fun x hx present beyond => ?_, fun p holds has => ⟨fun beyond => ?_, fun beyond => ?_⟩,
    fun has beyond => ?_, fun has beyond => ?_⟩
  · obtain load | store := List.mem_append.mp hx
    · rw [exec_plainLoads s d k q x load present, loadFrom, memRead_of_beyond wf beyond, finish]
    · rw [exec_plainStores s d k q x store present, memWrite_of_beyond wf beyond, finish]
  · obtain ⟨ld, -, st, -⟩ := exec_pointer_forms has holds
    simp only [List.forall_mem_cons, List.not_mem_nil, false_imp_iff, implies_true, and_true]
    refine ⟨?_, ?_⟩
    · rw [ld, loadPostInc, loadFrom, memRead_of_beyond wf beyond, finish]
    · rw [st, storePostInc, memWrite_of_beyond wf beyond, finish]
  · obtain ⟨-, ld, -, st⟩ := exec_pointer_forms has holds
    simp only [List.forall_mem_cons, List.not_mem_nil, false_imp_iff, implies_true, and_true]
    refine ⟨?_, ?_⟩
    · have reads := memRead_of_beyond (s := writePointer p (readPointer s p - 1#16) s) wf beyond
      rw [ld, loadPreDec, loadFrom, reads, finish]
    · rw [st, storePreDec, memWrite_of_beyond wf beyond, finish]
  · obtain ⟨lpm, lpmZ, lpmZInc⟩ := exec_lpm has d
    simp only [List.forall_mem_cons, List.not_mem_nil, false_imp_iff, implies_true, and_true]
    refine ⟨⟨?_, ?_⟩, fun low high => ?_⟩
    · rw [lpm, loadProgram_of_beyond beyond, finish]
    · rw [lpmZ, loadProgram_of_beyond beyond, finish]
    · rw [lpmZInc low high, loadProgramInc, loadProgram_of_beyond beyond, finish]
  · obtain ⟨elpm, elpmZ, elpmZInc⟩ := exec_elpm has d
    simp only [List.forall_mem_cons, List.not_mem_nil, false_imp_iff, implies_true, and_true]
    refine ⟨⟨?_, ?_⟩, fun low high => ?_⟩
    · rw [elpm, loadProgram_of_beyond beyond, finish]
    · rw [elpmZ, loadProgram_of_beyond beyond, finish]
    · rw [elpmZInc low high, loadExtendedInc, loadProgram_of_beyond beyond, finish]

end Sys2Proof.DataTransfer
end

section
/-! PROOFS. Interrupts, the boundary of a step and the fetch (R61, R87, R90, R303 to R311, R319, R320, R330). -/

namespace Sys2Proof.Effects

open Sys2Proof.Machine Sys2Proof.Stack

section
variable {s t u : State} {n : Nat}

/-! ## Entry (R307) -/

/-- The entry of vector `n` from `s`, whose pushes left `u`. -/
def entered (n : Nat) (s u : State) : State :=
  ackRequest n (setPc (vectorAddress s.cfg n) { mapSreg (fun sr => putFlag sr .i false) u with mode := .running })

theorem enterInterrupt_of_pushPc (pushes : pushPc s.pc.toNat s = .ok u) :
    enterInterrupt n s = .next (entered n s u) := by
  rw [enterInterrupt, pushes]
  rfl

theorem enterInterrupt_of_fault {f : Fault} (faults : pushPc s.pc.toNat s = .error f) :
    enterInterrupt n s = .fault f := by
  rw [enterInterrupt, faults]

theorem readFlag_entered (n : Nat) (s u : State) (f : Flag) :
    readFlag (entered n s u) f = if f = .i then false else readFlag u f :=
  flagOf_putFlag u.sreg .i f false

theorem requests_entered (n : Nat) (s u : State) : (entered n s u).requests = u.requests ∨
    (entered n s u).requests = u.requests.erase n := by
  have requests : (entered n s u).requests =
      if u.cfg.clearedOnEntry.contains n then u.requests.erase n else u.requests := rfl
  rw [requests]
  split
  · exact .inr rfl
  · exact .inl rfl

theorem mem_requests_entered {m : Nat} (ne : m ≠ n) : m ∈ (entered n s u).requests ↔ m ∈ u.requests := by
  obtain kept | erased := requests_entered n s u
  · rw [kept]
  · rw [erased, List.mem_erase_of_ne ne]

theorem entersVector (cfg : u.cfg = s.cfg) : EntersVector n s u (entered n s u) where
  pc := by
    rw [← cfg]
    exact congrArg (fun c : Config => BitVec.ofNat 22 ((c.vectorBase + n * c.vectorStride) % 2 ^ u.cfg.pcBits)) cfg.symm
  disabled := readFlag_entered n s u .i
  flags f hf := (readFlag_entered n s u f).trans (if_neg hf)
  mode := rfl
  told := rfl
  kept _ ne := mem_requests_entered ne
  cleared := requests_entered n s u
  rest := rfl

/-- Settles O41. -/
theorem interruptEntrySavesOnlyPc : Obligations.InterruptEntrySavesOnlyPc := by
  intro s n wf
  refine ⟨fun u pushes => ⟨_, enterInterrupt_of_pushPc pushes, entersVector (by rw [pushPc_frame pushes])⟩,
    fun f faults => enterInterrupt_of_fault faults, fun room => ?_⟩
  obtain ⟨u, pushes, ⟨cfg, sp, low, mid, high⟩, memory, rest⟩ := pushPc_of_room wf room s.pc.toNat
  obtain ⟨pc, disabled, flags, mode, told, kept, cleared, -⟩ := entersVector (n := n) cfg
  have requests : u.requests = s.requests := by rw [rest]
  refine ⟨_, enterInterrupt_of_pushPc pushes, disabled, fun f hf => ?_, mode, ?_, fun m hm => ?_, fun m ne hm => ?_,
    ⟨pc, sp, low, mid, high, memory, ?_⟩⟩
  · exact (flags f hf).trans (readFlag_congr (by rw [rest]) f)
  · rw [told, rest]
  · obtain kept | erased := cleared
    · rwa [kept, requests] at hm
    · rw [erased, requests] at hm
      exact List.mem_of_mem_erase hm
  · exact (kept m ne).mpr (requests ▸ hm)
  · rw [rest]
    rfl

/-! ## Entry and return (R309) -/

theorem sreg_reenabled {x : Byte} (enabled : flagOf x .i = true) : putFlag (putFlag x .i false) .i true = x := by
  refine sreg_ext fun f => ?_
  rw [flagOf_putFlag, flagOf_putFlag]
  by_cases same : f = .i <;> simp [same, enabled]

/-- Settles O43: the entry pushed `PC`, and `RETI` pops it. -/
theorem interruptThenReti : Obligations.InterruptThenReti := by
  intro s t n wf fits room enabled enters
  obtain ⟨u, pushes, ⟨cfg, sp, low, mid, high⟩, memory, rest⟩ := pushPc_of_room wf room s.pc.toNat
  rw [enterInterrupt_of_pushPc pushes] at enters
  cases enters
  have pops := popPc_of_onStack (t := entered n s u) wf room (Nat.mod_lt _ (by positivity)) ⟨cfg, sp, low, mid, high⟩
  rw [Nat.mod_eq_of_lt fits] at pops
  have sreg : u.sreg = s.sreg := by rw [rest]
  have pc : BitVec.ofNat 22 (s.pc.toNat % 2 ^ u.cfg.pcBits) = s.pc := by
    rw [cfg, Nat.mod_eq_of_lt fits]
    exact BitVec.ofNat_toNat 22 s.pc ▸ BitVec.setWidth_eq s.pc
  have reenabled : putFlag (putFlag u.sreg .i false) .i true = s.sreg := by rw [sreg, sreg_reenabled enabled]
  refine ⟨_, ControlFlow.exec_reti_of_popPc pops, pc, reenabled, ?_, rfl, rfl, memory, ?_⟩
  · change readSp s &&& u.cfg.spMask = readSp s
    rw [cfg, readSp, and_mask_idem]
  · change { u with
        pc := BitVec.ofNat 22 (s.pc.toNat % 2 ^ u.cfg.pcBits), sreg := putFlag (putFlag u.sreg .i false) .i true,
        sp := readSp s, mode := .running, irqInhibit := true,
        requests := (entered n s u).requests, ioTrace := (entered n s u).ioTrace } = _
    rw [pc, reenabled, rest]
    rfl

/-! ## Sampling (R304 to R306) -/

theorem pendingRequest_eq_some (lower : 1 ≤ n) (upper : n < s.cfg.nVectors) (requested : n ∈ s.requests)
    (lowest : ∀ m, 1 ≤ m → m < s.cfg.nVectors → m ∈ s.requests → n ≤ m) : pendingRequest s = some n := by
  rw [pendingRequest, List.find?_range_eq_some]
  refine ⟨by simp [lower, requested], by simpa using upper, fun m hm => ?_⟩
  by_contra pending
  obtain ⟨positive, requested⟩ : m ≠ 0 ∧ m ∈ s.requests := by simpa using pending
  have := lowest m (by omega) (by omega) requested
  omega

theorem pendingRequest_eq_none (no_request : ∀ n, 1 ≤ n → n < s.cfg.nVectors → n ∉ s.requests) :
    pendingRequest s = none := by
  rw [pendingRequest, List.find?_eq_none]
  intro n hn
  have upper := List.mem_range.mp hn
  simpa using fun lower => no_request n lower upper

theorem interruptToTake_eq_none (no_interrupt : s.mode = .stopped ∨ readFlag s .i = false ∨ s.irqInhibit = true ∨
    ∀ n, 1 ≤ n → n < s.cfg.nVectors → n ∉ s.requests) : interruptToTake s = none := by
  rw [interruptToTake]
  split
  next => rfl
  next open_ =>
    obtain stopped | disabled | inhibit | no_request := no_interrupt
    · exact absurd (.inl stopped) open_
    · exact absurd (.inr (.inl disabled)) open_
    · exact absurd (.inr (.inr inhibit)) open_
    · exact pendingRequest_eq_none no_request

/-- Settles O42. -/
theorem interruptSampling : Obligations.InterruptSampling := by
  intro s u boundary
  refine ⟨fun n lower upper requested lowest mode enabled inhibit => ?_, fun no_interrupt => ?_⟩
  · refine step_of_interrupt boundary ?_
    rw [interruptToTake, if_neg (by simp [mode, enabled, inhibit])]
    exact pendingRequest_eq_some lower upper requested lowest
  · exact step_of_no_interrupt boundary (interruptToTake_eq_none no_interrupt)

/-! ## Reset, stopped and sleeping (R319, R320, R330) -/

/-- Settles O46. -/
theorem resetEventEffect : Obligations.ResetEventEffect := by
  intro s u wf boundary
  have frame := takeBoundary_frame boundary
  refine ⟨_, step_of_reset boundary, ?_⟩
  rw [frame]
  refine ⟨toNat_pc wf _, fun f => ?_, and_mask_idem _ _, rfl, rfl, rfl, rfl, rfl, rfl, rfl, rfl, rfl⟩
  change flagOf 0#8 f = false
  cases f <;> rfl

/-- Settles O47. -/
theorem stoppedAndSleeping : Obligations.StoppedAndSleeping := by
  intro s u boundary waits
  have frame := takeBoundary_frame boundary
  have cfg : u.cfg = s.cfg := by rw [frame]
  have mode : u.mode = s.mode := by rw [frame]
  have inhibit : u.irqInhibit = s.irqInhibit := by rw [frame]
  have enabled : readFlag u .i = readFlag s .i := readFlag_congr (by rw [frame]) .i
  have no_interrupt : interruptToTake u = none := by
    refine interruptToTake_eq_none ?_
    rw [mode, enabled, inhibit, cfg]
    exact waits.imp id And.right
  have waiting : u.mode ≠ .running := by
    rw [mode]
    obtain stopped | ⟨sleeping, -⟩ := waits
    · rw [stopped]; decide
    · rw [sleeping]; decide
  exact ⟨by rw [step_of_no_interrupt boundary no_interrupt, executeWith_waiting waiting], frame⟩

/-! ## Fetching (R61, R87, R90) -/

theorem pmWord_of_within (within : n % 2 ^ s.cfg.pcBits < s.cfg.flashWords) :
    pmWord n s = .ok (flashWord s.flash (n % 2 ^ s.cfg.pcBits)) := if_pos within

theorem pmWord_of_beyond (beyond : s.cfg.flashWords ≤ n % 2 ^ s.cfg.pcBits) :
    pmWord n s = .error (.badFetch (n % 2 ^ s.cfg.pcBits)) := if_neg (by omega)

theorem fetch_of_one_word {w0 : Word} (first : pmWord s.pc.toNat s = .ok w0) (one : isTwoWord w0 = false) :
    fetch s = decodeAt w0 0#16 s := by
  simp only [fetch, first, one, Bool.false_eq_true, if_false]

theorem fetch_of_two_words {w0 w1 : Word} (first : pmWord s.pc.toNat s = .ok w0) (two : isTwoWord w0 = true)
    (second : pmWord (s.pc.toNat + 1) s = .ok w1) : fetch s = decodeAt w0 w1 s := by
  simp only [fetch, first, two, second, if_true]

theorem fetch_of_second_beyond {w0 : Word} {f : Fault} (first : pmWord s.pc.toNat s = .ok w0)
    (two : isTwoWord w0 = true) (second : pmWord (s.pc.toNat + 1) s = .error f) : fetch s = .error f := by
  simp only [fetch, first, two, second, if_true]

theorem decodeAt_of_decodeOp {w0 w1 : Word} {i : Instr} (h : decodeOp w0 w1 = .ok i) (s : State) :
    decodeAt w0 w1 s = .ok i := by
  rw [decodeAt, h]

theorem of_map_ok {x : Except DecodeError Instr} {i : Instr} {rest rest' : List Word}
    (h : x.map (fun j => (j, rest')) = .ok (i, rest)) : x = .ok i ∧ rest' = rest := by
  cases x with
  | error e => cases h
  | ok j => cases h; exact ⟨rfl, rfl⟩

/-- Settles O49: what `decode` makes of the two words is what the fetch makes of them. -/
theorem stepRunsDecoded : Obligations.StepRunsDecoded := by
  intro s u i rest boundary no_interrupt running w w1 within within1 wf decoded
  have first := pmWord_of_within within
  have fetched : fetch u = .ok i := by
    rw [decode] at decoded
    split at decoded
    next two =>
      obtain ⟨decodes, -⟩ := of_map_ok decoded
      have second := pmWord_of_within (within1 ((Encoding.isTwoWord_iff_words decodes).mp two))
      rw [fetch_of_two_words first two second, decodeAt_of_decodeOp decodes]
    next one =>
      obtain ⟨decodes, -⟩ := of_map_ok decoded
      rw [fetch_of_one_word first (by simpa using one), decodeAt_of_decodeOp decodes]
  rw [step_of_no_interrupt boundary no_interrupt, executeWith_running running fetched]

/-- No row has a reserved word (R85). -/
theorem not_matches_of_reserved {w : Word} (reserved : reservedWord w = true) {row : OpRow} (mem : row ∈ opTable) :
    ¬ (w &&& row.mask == row.pat) = true := by
  have none_matches := Encoding.reservedWords.1 w
  rw [if_pos reserved, List.length_eq_zero_iff, List.filter_eq_nil_iff] at none_matches
  exact none_matches row mem

theorem decodeOp_of_reserved {w : Word} (reserved : reservedWord w = true) (w1 : Word) :
    decodeOp w w1 = .error (.reserved w) := by
  have no_row : opTable.find? (fun row => w &&& row.mask == row.pat) = none :=
    List.find?_eq_none.mpr fun row mem => not_matches_of_reserved reserved mem
  rw [decodeOp, no_row]

theorem not_isTwoWord_of_reserved {w : Word} (reserved : reservedWord w = true) : isTwoWord w = false := by
  rw [Bool.eq_false_iff, ne_eq, Encoding.isTwoWord_iff, not_or, not_or, not_or]
  have no_row {mask pat : Word} (mem : (⟨mask, pat⟩ : Encoding.Pattern) ∈ opTable.map Encoding.rowPattern) :
      ¬ w &&& mask = pat := by
    obtain ⟨row, in_table, same⟩ := List.mem_map.mp mem
    cases same
    exact fun h => not_matches_of_reserved reserved in_table (beq_iff_eq.mpr h)
  exact ⟨no_row (by simp [opTable, opTransfer, Encoding.rowPattern]),
    no_row (by simp [opTable, opTransfer, Encoding.rowPattern]),
    no_row (by simp [opTable, opBranch, Encoding.rowPattern]),
    no_row (by simp [opTable, opBranch, Encoding.rowPattern])⟩

/-- Settles O50. -/
theorem fetchFaults : Obligations.FetchFaults := by
  refine ⟨fun s n => ⟨pmWord_of_within, pmWord_of_beyond⟩, fun s u boundary no_interrupt running => ?_⟩
  have faults {f : Fault} (fetched : fetch u = .error f) : step s = .fault f := by
    rw [step_of_no_interrupt boundary no_interrupt, executeWith_fault running fetched]
  refine ⟨fun beyond => faults ?_, fun within => ⟨fun reserved => faults ?_,
    fun two => ⟨fun beyond => faults ?_, fun within1 => ?_⟩, fun one => ?_⟩⟩
  · rw [fetch, pmWord_of_beyond beyond]
  · rw [fetch_of_one_word (pmWord_of_within within) (not_isTwoWord_of_reserved reserved), decodeAt,
      decodeOp_of_reserved reserved]
  · exact fetch_of_second_beyond (pmWord_of_within within) two (pmWord_of_beyond beyond)
  · exact fetch_of_two_words (pmWord_of_within within) two (pmWord_of_within within1)
  · exact fetch_of_one_word (pmWord_of_within within) one

/-! ## After reset -/

theorem inv_powerOn {c : Config} (wf : c.wf) (r : Vector Byte 32) : (State.powerOn c r).Inv where
  cfg := wf
  pc := by
    change (BitVec.ofNat 22 (c.resetPc % 2 ^ c.pcBits)).toNat < _
    rw [toNat_pc wf]
    exact Nat.mod_lt _ (by positivity)
  sp := and_mask_idem _ _
  rampz := BitVec.zero_and
  eind := BitVec.zero_and
  noRampz _ := rfl
  noEind _ := rfl
  sram := (wf_powerOn c r).1
  flash := (wf_powerOn c r).2
  requests := rfl

/-- Settles O51. -/
theorem resetMeetsInvariant : Obligations.ResetMeetsInvariant :=
  ⟨inv_powerOn (by decide) _, fun _ r wf => inv_powerOn wf r⟩

end

end Sys2Proof.Effects
end

section
/-! PROOFS. Aliases (R82, R83), and the decoded examples. -/

namespace Sys2Proof.Encoding

open Sys2Proof.Machine

/-- Settles O59. -/
theorem decodeExamples : Obligations.DecodeExamples := by
  simp only [Obligations.DecodeExamples, List.forall_mem_cons, List.not_mem_nil, IsEmpty.forall_iff, implies_true,
    and_true]
  and_intros <;> rfl

/-! ## Shifts as additions -/

theorem shiftLeft_one_byte (a : Byte) : a <<< 1 = a + a :=
  BitVec.eq_of_toNat_eq (by rw [Arithmetic.toNat_shiftLeft_one_byte, BitVec.toNat_add, Nat.two_mul])

/-- A bit shifted into the place that a doubling leaves empty is added. -/
theorem rotateLeft_eq_add (a : Byte) (s : State) : (a <<< 1) ||| carryByte s = a + a + carryByte s := by
  apply BitVec.eq_of_toNat_eq
  rw [Arithmetic.toNat_rotateLeft, BitVec.toNat_add, BitVec.toNat_add, Arithmetic.toNat_carryByte]
  omega

theorem carry_of_doubling (x r : Bool) : (x && x || x && !r || !r && x) = x := by
  cases x <;> simp

theorem overflow_of_doubling (x r : Bool) : (x && x && !r || !x && !x && r) = (r ^^ x) := by
  cases x <;> simp

/-- A byte added to itself carries out of a bit exactly where the byte has it. -/
theorem shiftLeftFlags_eq_addFlags (a r : Byte) : shiftLeftFlags a r = addFlags a a r := by
  funext sr
  refine sreg_ext fun f => ?_
  rw [flagOf_shiftLeftFlags, flagOf_addFlags]
  cases f <;> simp only [carry_of_doubling, overflow_of_doubling]

/-! ## No displacement -/

theorem displaced_zero (s : State) (p : Pointer) : displaced s p 0#6 = readPointer s p :=
  BitVec.add_zero _

/-- Settles O60: a second name has its row's meaning by definition, but for the plain accesses by `Y` and `Z`, which have no
displacement, and for `LSL` and `ROL`, whose meaning is a shift. -/
theorem aliasesActAlike : Obligations.AliasesActAlike := by
  intro i s
  cases i with
  | lsl d =>
    change execLsl d s = execAdd d d s
    simp only [execLsl, execAdd, shiftLeft_one_byte, shiftLeftFlags_eq_addFlags]
  | rol d =>
    change execRol d s = execAdc d d s
    simp only [execRol, execAdc, rotateLeft_eq_add, shiftLeftFlags_eq_addFlags]
  | ldY d =>
    change execLdY d s = execLddY d 0#6 s
    simp only [execLdY, execLddY, displaced_zero]
    rfl
  | ldZ d =>
    change execLdZ d s = execLddZ d 0#6 s
    simp only [execLdZ, execLddZ, displaced_zero]
    rfl
  | stY r =>
    change execStY r s = execStdY 0#6 r s
    simp only [execStY, execStdY, displaced_zero]
    rfl
  | stZ r =>
    change execStZ r s = execStdZ 0#6 r s
    simp only [execStZ, execStdZ, displaced_zero]
    rfl
  | _ => rfl

end Sys2Proof.Encoding
end
